-- ==== Sys2Proof/Word.lean ====
section
/-! DEFINITION. Word.lean: the widths of the values the spec treats as bits (`00_scope.md` R6). -/

namespace Sys2Proof

/-- A byte: one storage cell, one port register, one vector number (R6, R16, R159). -/
abbrev Byte := BitVec 8

/-- A 16-bit register value or bus word, `u16` of R6. -/
abbrev Half := BitVec 16

/-- A 32-bit bus address or bus value, `u32` of R6. -/
abbrev Word := BitVec 32

/-- An output-compare channel index `k`, zero-based (R18). -/
abbrev Channel := Fin 4

/-- A priority level, 0 to 7 (R21, R159). -/
abbrev Level := Fin 8

end Sys2Proof
end

