-- ==== Sys2Proof/Syntax.lean ====
section
/-! DEFINITION. Syntax.lean: the operations the core accepts, one constructor per row of `spec/opcode_table.json`:
the 41 operations of `30_encoding.md` R61 and the 20 register-decode rows of R64; and the words that carry them. -/

namespace Sys2Proof

/-- The four ports of P21 (`00_scope.md` R4); the numbers of format `PORT` are 0 `GP`, 1 `E`, 2 `F`, 3 `QS` (R60). -/
inductive Port where
  | gp | e | f | qs
deriving DecidableEq, Repr, Inhabited

/-- The three MMIO regions (R15): `T` timer, `S` clock/system, `Q` serial. -/
inductive Region where
  | timer | sys | serial
deriving DecidableEq, Repr, Inhabited

/-- How a bus access reaches a NAMED register (R70: "A register may be named instead of its address"): the access
width and, for one byte of a 16-bit register, the lane (`lo = true` is bits 7:0, at the register's second address).
An 8-bit register has the lane `lo = false` only, and by its name the 8-bit accesses only (`Instr.wf`; the latter is the
model's choice, log entry 3). -/
inductive RegAccess where
  | read8 (lo : Bool)
  | write8 (lo : Bool) (v : Byte)
  | read16
  | write16 (v : Half)
deriving DecidableEq, Repr, Inhabited

/-- The 20 register names of the register decode (R22, R23, R64; the last rows of `opcode_table.json`).
`porte0`/`porte1` and `portf0`/`portf1` are the two addresses of the one data register of port `E` and of port `F`. -/
inductive RegName where
  | ddrgp | portgp | tcnt | toc1 | toc2 | toc3 | toc4 | tmsk | tflg
  | syncr | porte0 | porte1 | ddre | pepar | portf0 | portf1 | ddrf | pfpar | picr | pitr
deriving DecidableEq, Repr, Inhabited

/-- One constructor per row of `spec/opcode_table.json`. The region operations have one constructor per region, as the
table has one row per region. A register-decode row is the access to that register, by its name (R70). -/
inductive Instr where
  -- bus operations, `45_dispatch.md`
  | read8 (addr : Word)
  | read16 (addr : Word)
  | read32 (addr : Word)
  | write8 (addr : Word) (v : Byte)
  | write16 (addr : Word) (v : Half)
  | write32 (addr : Word) (v : Word)
  | fetch16 (addr : Word)
  | fetch32 (addr : Word)
  -- region-direct operations, `40_mmio_region.md`
  | rgnInrangeT (addr : Word)
  | rgnInrangeS (addr : Word)
  | rgnInrangeQ (addr : Word)
  | rgnR8T (addr : Word)
  | rgnR8S (addr : Word)
  | rgnR8Q (addr : Word)
  | rgnR16T (addr : Word)
  | rgnR16S (addr : Word)
  | rgnR16Q (addr : Word)
  | rgnW8T (addr : Word) (v : Byte)
  | rgnW8S (addr : Word) (v : Byte)
  | rgnW8Q (addr : Word) (v : Byte)
  | rgnW16T (addr : Word) (v : Half)
  | rgnW16S (addr : Word) (v : Half)
  | rgnW16Q (addr : Word) (v : Half)
  -- port operations, `41_gpio_port.md`
  | pSetdir (p : Port) (m : Byte)
  | pWritetx (p : Port) (b : Byte)
  | pWriterx (p : Port) (b : Byte)
  | pRead (p : Port)
  | pEnable (p : Port) (m : Byte)
  -- interrupt operations, `44_interrupt_arbiter.md`
  | inject (vec : Byte) (lvl : Level)
  | haspend (vec : Byte) (lvl : Level)
  | ack (lvl : Level)
  -- system operations, `46_integration.md`, and the exec steps of the peripherals
  | sysStep
  | sysExec (delta : Word)
  | sysReset
  | illegal (opcode : Half)
  | resethook
  | resetpc
  | resetsp
  | tExec (delta : Word)
  | sExec (delta : Word)
  | qExec (delta : Word)
  -- register-decode rows, R64 with R22 and R23
  | ddrgp (acc : RegAccess)
  | portgp (acc : RegAccess)
  | tcnt (acc : RegAccess)
  | toc1 (acc : RegAccess)
  | toc2 (acc : RegAccess)
  | toc3 (acc : RegAccess)
  | toc4 (acc : RegAccess)
  | tmsk (acc : RegAccess)
  | tflg (acc : RegAccess)
  | syncr (acc : RegAccess)
  | porte0 (acc : RegAccess)
  | porte1 (acc : RegAccess)
  | ddre (acc : RegAccess)
  | pepar (acc : RegAccess)
  | portf0 (acc : RegAccess)
  | portf1 (acc : RegAccess)
  | ddrf (acc : RegAccess)
  | pfpar (acc : RegAccess)
  | picr (acc : RegAccess)
  | pitr (acc : RegAccess)
deriving DecidableEq, Repr

/-- The words that carry an operation: the 72-bit transaction word of R60, and the word of a register-decode row. The
latter's low 32 bits are the bus address whose low 20 bits select the register (R64); bits 39:32 (kind of access) and
bits 55:40 (data) are the model's own, since the table gives these rows no further bits (log entry 3). -/
inductive OpWord where
  | tw (w : BitVec 72)
  | reg (w : BitVec 56)
deriving DecidableEq, Repr

/-- What the engine may issue while it runs one instruction inside `STEP` (R180, R187, and the engine's row of R193). -/
inductive EngineOp where
  | read8 (addr : Word)
  | read16 (addr : Word)
  | read32 (addr : Word)
  | write8 (addr : Word) (v : Byte)
  | write16 (addr : Word) (v : Half)
  | write32 (addr : Word) (v : Word)
  | fetch16 (addr : Word)
  | fetch32 (addr : Word)
  | ack (lvl : Level)
  | illegal (opcode : Half)
  | resethook
  | resetpc
  | resetsp
deriving DecidableEq, Repr

/-- The operation of R61 that a nested operation of the engine is. -/
def EngineOp.toInstr : EngineOp → Instr
  | .read8 a => .read8 a
  | .read16 a => .read16 a
  | .read32 a => .read32 a
  | .write8 a v => .write8 a v
  | .write16 a v => .write16 a v
  | .write32 a v => .write32 a v
  | .fetch16 a => .fetch16 a
  | .fetch32 a => .fetch32 a
  | .ack l => .ack l
  | .illegal op => .illegal op
  | .resethook => .resethook
  | .resetpc => .resetpc
  | .resetsp => .resetsp

/-- One run of the engine, the trace notation `STEP n { op; ... }` of R70: the operations it issues, in order, and the
number of cycles it then reports. -/
structure EngineRun where
  ops : List EngineOp
  cycles : Nat
deriving DecidableEq, Repr, Inhabited

end Sys2Proof
end

