-- ==== Sys2Proof/Config.lean ====
section
/-! DEFINITION. Config.lean: the configuration record `Cfg` of `00_scope.md` R4 (parameters P1 to P24), and the constants
without a body that stand for what the spec leaves to the environment (OPEN parameters, hooks, unreachable wraps). -/

namespace Sys2Proof

/-- P15 `TIMER_VARIANT` (R122, R243). -/
inductive TimerVariant where
  | multichannel | legacy
deriving DecidableEq, Repr, Inhabited

/-- P10 `ACTIVE_OC`, in `{2, 4}` (R18, R119; `90_conflicts.md` C3). -/
inductive ActiveOc where
  | two | four
deriving DecidableEq, Repr, Inhabited

/-- The number of channels the exec step advances (P10). -/
def ActiveOc.count : ActiveOc → Nat
  | .two => 2
  | .four => 4

/-- What the illegal-instruction hook answers (R183): "resume, substitute a value, or halt". The spec gives the value no
width (`91_not_in_source.md` N12), so it has none here. -/
inductive RecoveryAction where
  | resume
  | substitute (value : Nat)
  | halt
deriving DecidableEq, Repr, Inhabited

/-- The read callback a port currently has (`H_RX[p]`, P16): the identity, which is the default, or some other total
function from byte to byte, named by a number (`Config.readHook`); so a hook replaced "at any time" (R102, R33) is data. -/
inductive Hook where
  | identity
  | custom (n : Nat)
deriving DecidableEq, Repr, Inhabited

/-- The configuration record of R4. Fixed by the source, so no field: `ADDR_MASK` (P1), the window sizes (P2), `WRAP`
(P3), `PRESCALE_SHIFT` (P4), the dispatch and exec orders (P22, P23), the prescale factors (P24), the widths P19 and P20
and the set of ports (P21). The functions `H_RX` (P16) and `ILLEGAL_POLICY` (P17) are constants of `Config`. -/
structure Cfg where
  /-- P5 -/
  tBase : Nat
  sBase : Nat
  qBase : Nat
  /-- P6: offsets from `tBase`; `tToc[k]` is the target register of channel `k` -/
  tDdrgp : Nat
  tPortgp : Nat
  tTcnt : Nat
  tToc : Vector Nat 4
  tTmsk : Nat
  tTflg : Nat
  /-- P7: offsets from `sBase`; a port data register answers at every offset of its set, listed rising -/
  sSyncr : Nat
  sPorteData : List Nat
  sDdre : Nat
  sPepar : Nat
  sPortfData : List Nat
  sDdrf : Nat
  sPfpar : Nat
  sPicr : Nat
  sPitr : Nat
  /-- P8: bit positions inside 16-bit registers (R25 to R28); `pitr512When` is the value of the prescale bit that
  selects 512 (R27). The widths of W and X are forced to one bit; the others are part of the default -/
  syncrW : Nat
  syncrX : Nat
  syncrYLo : Nat
  syncrYWidth : Nat
  picrLevelLo : Nat
  picrLevelWidth : Nat
  picrVectorLo : Nat
  picrVectorWidth : Nat
  pitrPtp : Nat
  pitr512When : Bool
  pitrModLo : Nat
  pitrModWidth : Nat
  ocBit : Vector Nat 4
  /-- P9 to P13 -/
  extClockHz : Nat
  activeOc : ActiveOc
  tVecBase : Byte
  tLevel : Level
  autovector : Word
  /-- P14: the bytes of the reset images that are not `0x00`, by offset -/
  imageT : List Host.Cell
  imageS : List Host.Cell
  imageQ : List Host.Cell
  /-- P15 -/
  variant : TimerVariant
  /-- P18 -/
  resetPc : Word
  resetSp : Word
deriving DecidableEq, Repr

namespace Config

/-- P9 `EXT_CLOCK_HZ` is OPEN with the constraint `> 0`; this is one less than it. No body: nothing can rest on a value
(log entry 5). -/
opaque extClockHzLessOne : Nat

/-- P9, OPEN: the external clock in hertz, positive. -/
def extClockHz : Nat := extClockHzLessOne + 1

/-- P11 `T_VEC_BASE`, OPEN (log entry 5). -/
opaque tVecBase : Byte

/-- P12 `T_LEVEL`, OPEN (log entry 5). -/
opaque tLevel : Level

/-- P18 `RESET_PC`, OPEN (log entry 5). -/
opaque resetPc : Word

/-- P18 `RESET_SP`, OPEN (log entry 5). -/
opaque resetSp : Word

/-- P17 `ILLEGAL_POLICY`, OPEN: "policy is a caller-supplied decision, not fixed by the core" (R183; log entry 5). -/
opaque illegalPolicy : Half → RecoveryAction

/-- The read callbacks other than the identity: for every number some total function from byte to byte (P16;
`93_implementation_defined.md` U15; log entry 6). -/
opaque readHook : Nat → Byte → Byte

/-- FREE VALUE: what the engine does and reports when the state holds no answer of its (R187: "In a model the engine is
an oracle"; log entry 7). -/
opaque engineRun : Nat → EngineRun

/-- FREE VALUE: the cycle counter after a step that would carry it past 64 bits (R13, R8; log entry 8). -/
opaque cyclesPastEnd : Nat → BitVec 64

/-- FREE VALUE: a port's write counter after a write at `2^64 - 1` (R8 (g); U12 "any value after it"; log entry 8). -/
opaque writeCounterPastEnd : Nat → BitVec 64

end Config

/-- The default register map, field positions, sentinel and reset image of R4 (P5 to P8, P13, P14), the reference number
of channels (P10) and the normative timer variant (P15); the OPEN parameters are the constants above. -/
def Cfg.default : Cfg where
  tBase := 0xFF900
  sBase := 0xFFA00
  qBase := 0xFFC00
  tDdrgp := 0x06
  tPortgp := 0x07
  tTcnt := 0x0A
  tToc := #v[0x14, 0x16, 0x18, 0x1A]
  tTmsk := 0x20
  tTflg := 0x22
  sSyncr := 0x04
  sPorteData := [0x11, 0x13]
  sDdre := 0x15
  sPepar := 0x17
  sPortfData := [0x19, 0x1B]
  sDdrf := 0x1D
  sPfpar := 0x1F
  sPicr := 0x22
  sPitr := 0x24
  syncrW := 15
  syncrX := 14
  syncrYLo := 8
  syncrYWidth := 6
  picrLevelLo := 8
  picrLevelWidth := 3
  picrVectorLo := 0
  picrVectorWidth := 8
  pitrPtp := 8
  pitr512When := true
  pitrModLo := 0
  pitrModWidth := 8
  ocBit := #v[11, 12, 13, 14]
  extClockHz := Config.extClockHz
  activeOc := .two
  tVecBase := Config.tVecBase
  tLevel := Config.tLevel
  autovector := 0xFFFFFFFF
  imageT := [(0x14, 0xFF), (0x15, 0xFF), (0x16, 0xFF), (0x17, 0xFF), (0x18, 0xFF), (0x19, 0xFF), (0x1A, 0xFF), (0x1B, 0xFF)]
  imageS := []
  imageQ := []
  variant := .multichannel
  resetPc := Config.resetPc
  resetSp := Config.resetSp

end Sys2Proof
end

