-- ==== Sys2Proof/Machine/Fields.lean ====
section
/-! DEFINITION. Machine/Fields.lean: byte order, register fields, the reset image and the clock formulas: everything the
rules compute from the configuration and from register values alone. -/

namespace Sys2Proof.Machine

/-! ### Byte order (R41: storage is big-endian) -/

def hiByte (v : Half) : Byte := v.extractLsb' 8 8
def loByte (v : Half) : Byte := v.extractLsb' 0 8
def joinBytes (hi lo : Byte) : Half := hi ++ lo
def hiHalf (v : Word) : Half := v.extractLsb' 16 16
def loHalf (v : Word) : Half := v.extractLsb' 0 16
def joinHalves (hi lo : Half) : Word := hi ++ lo

/-! ### Constants the source fixes -/

/-- P3 `WRAP`, in cycles. -/
def wrapCycles : Int := 0x40000

/-- The largest value of an `i32` (R6, R8 (d)). -/
def i32Max : Int := 0x7FFFFFFF

/-- The least value of an `i32`. -/
def i32Min : Int := -0x80000000

/-! ### Regions (R15) -/

/-- P2: window sizes in bytes. -/
def regionSize : Region → Nat
  | .timer => 64
  | .sys => 128
  | .serial => 512

/-- P5: base address of a region. -/
def regionBase (c : Cfg) : Region → Nat
  | .timer => c.tBase
  | .sys => c.sBase
  | .serial => c.qBase

/-- The byte listed for offset `o`, `0x00` where none is. -/
def listedByte : List Host.Cell → Nat → Byte
  | [], _ => 0x00
  | (x, b) :: rest, o => if o = x then b else listedByte rest o

/-- P14 `RESET_IMAGE`: the byte at offset `o` of region `r` after reset. -/
def imageByte (c : Cfg) : Region → Nat → Byte
  | .timer, o => listedByte c.imageT o
  | .sys, o => listedByte c.imageS o
  | .serial, o => listedByte c.imageQ o

/-- The big-endian 16-bit value of the reset image at offset `o`. -/
def imageHalf (c : Cfg) (r : Region) (o : Nat) : Half := joinBytes (imageByte c r o) (imageByte c r (o + 1))

/-! ### Fields of 16-bit register values (R25 to R28, R65) -/

/-- The field of `width` bits from bit `lo` up, as an unsigned number. -/
def fieldOf (v : Half) (lo width : Nat) : Nat := (v.toNat >>> lo) % 2 ^ width

/-- `PICR.LEVEL` (R26): a field no wider than a level, so nothing is cut off (`Cfg.FieldsOk`; log entry 16). -/
def picrLevel (c : Cfg) (picr : Half) : Level := Fin.ofNat 8 (fieldOf picr c.picrLevelLo c.picrLevelWidth)

/-- `PICR.VECTOR` (R26): a field no wider than a vector (P20), so nothing is cut off (`Cfg.FieldsOk`; log entry 16). -/
def picrVector (c : Cfg) (picr : Half) : Byte := BitVec.ofNat 8 (fieldOf picr c.picrVectorLo c.picrVectorWidth)

/-- The prescale factor, "512-or-1" (R27, P24). -/
def pitPrescale (c : Cfg) (pitr : Half) : Nat := if pitr.getLsbD c.pitrPtp = c.pitr512When then 512 else 1

/-- `PITR.MODULUS` (R27). -/
def pitModulus (c : Cfg) (pitr : Half) : Nat := fieldOf pitr c.pitrModLo c.pitrModWidth

/-! ### Clock and periodic timer (R131, R133) -/

/-- `Ratio(s) = 4 * (Y + 1) * 2^(2*W + X)` (R131). -/
def clockRatio (c : Cfg) (syncr : Half) : Nat :=
  4 * (fieldOf syncr c.syncrYLo c.syncrYWidth + 1) *
    2 ^ (2 * (syncr.getLsbD c.syncrW).toNat + (syncr.getLsbD c.syncrX).toNat)

/-- `ClockOf(s)`: "`systemClockHz = externalClockHz × 4 × (Y+1) × 2^(2W+X)`" (R131), not reduced modulo any width. -/
def clockOf (c : Cfg) (syncr : Half) : Nat := c.extClockHz * clockRatio c syncr

/-- `PitLoad` (R133): 0 when the level field is 0, else `MODULUS * (512 or 1) * 4 * (sysclk div EXT_CLOCK_HZ)`. -/
def pitLoadOf (c : Cfg) (picr pitr : Half) (sysclk : Nat) : Int :=
  if picrLevel c picr = 0 then 0
  else ((pitModulus c pitr * pitPrescale c pitr * 4 * (sysclk / c.extClockHz) : Nat) : Int)

/-! ### Timer (R113, R114) -/

/-- `target = register<<2`, in cycles (R113; P4). -/
def targetCycles (toc : Half) : Int := ((toc.toNat <<< 2 : Nat) : Int)

/-- The accumulator after `Resync` (R114, closed form): the one value congruent to `a` modulo `WRAP` with
`t - WRAP < a' <= t`. That the source's two loops end there is stated as an obligation. -/
def resyncValue (t a : Int) : Int := t - (t - a) % wrapCycles

/-- The first loop of R114, `while a > t: a <- a - WRAP`, with `n` turns allowed. -/
def resyncDown (t : Int) : Nat → Int → Int
  | 0, a => a
  | n + 1, a => if a > t then resyncDown t n (a - wrapCycles) else a

/-- The second loop of R114, `while t - a >= WRAP: a <- a + WRAP`, with `n` turns allowed. -/
def resyncUp (t : Int) : Nat → Int → Int
  | 0, a => a
  | n + 1, a => if t - a ≥ wrapCycles then resyncUp t n (a + wrapCycles) else a

/-! ### What reset computes from the image (R36, R221) -/

/-- Step 2 of R221: the port's direction is the image's byte at its direction register; `0x00` for `QS`. -/
def resetDirection (c : Cfg) : Port → Byte
  | .gp => imageByte c .timer c.tDdrgp
  | .e => imageByte c .sys c.sDdre
  | .f => imageByte c .sys c.sDdrf
  | .qs => 0x00

/-- Step 2 of R221: the complement of the image's byte at the pin-assignment register; `0xFF` for `GP` and `QS`. -/
def resetEnabled (c : Cfg) : Port → Byte
  | .gp => 0xFF
  | .e => ~~~(imageByte c .sys c.sPepar)
  | .f => ~~~(imageByte c .sys c.sPfpar)
  | .qs => 0xFF

/-- Step 4 of R221. -/
def resetSysclk (c : Cfg) : Nat := clockOf c (imageHalf c .sys c.sSyncr)

/-- Step 5 of R221. -/
def resetPitLoad (c : Cfg) : Int :=
  pitLoadOf c (imageHalf c .sys c.sPicr) (imageHalf c .sys c.sPitr) (resetSysclk c)

end Sys2Proof.Machine
end

