-- ==== Sys2Proof/WellFormed.lean ====
section
/-! DEFINITION. WellFormed.lean: which instructions the encoding can express (`Instr.wf`), which engine runs the contract
allows (`EngineRun.wf`), and which configurations meet the constraints of R4 (`Cfg.WF`; U21). -/

namespace Sys2Proof

/-- An 8-bit register covers one byte (R64): it has no second lane. DESIGN CHOICE (log entry 3): by its NAME it has no 16-bit
access either, a point the spec leaves open; the word at its address is reached by `WRITE16` and `READ16` there. -/
def RegAccess.fits8 : RegAccess → Bool
  | .read8 lo => !lo
  | .write8 lo _ => !lo
  | .read16 => false
  | .write16 _ => false

/-- Well-formed instructions: every operand is in range by its type, but for the accesses of the 8-bit registers. -/
def Instr.wf : Instr → Bool
  | .ddrgp acc => acc.fits8
  | .portgp acc => acc.fits8
  | .porte0 acc => acc.fits8
  | .porte1 acc => acc.fits8
  | .ddre acc => acc.fits8
  | .pepar acc => acc.fits8
  | .portf0 acc => acc.fits8
  | .portf1 acc => acc.fits8
  | .ddrf acc => acc.fits8
  | .pfpar acc => acc.fits8
  | .read8 _ | .read16 _ | .read32 _ | .write8 _ _ | .write16 _ _ | .write32 _ _ | .fetch16 _ | .fetch32 _ => true
  | .rgnInrangeT _ | .rgnInrangeS _ | .rgnInrangeQ _ | .rgnR8T _ | .rgnR8S _ | .rgnR8Q _ => true
  | .rgnR16T _ | .rgnR16S _ | .rgnR16Q _ | .rgnW8T _ _ | .rgnW8S _ _ | .rgnW8Q _ _ => true
  | .rgnW16T _ _ | .rgnW16S _ _ | .rgnW16Q _ _ => true
  | .pSetdir _ _ | .pWritetx _ _ | .pWriterx _ _ | .pRead _ | .pEnable _ _ => true
  | .inject _ _ | .haspend _ _ | .ack _ => true
  | .sysStep | .sysExec _ | .sysReset | .illegal _ | .resethook | .resetpc | .resetsp => true
  | .tExec _ | .sExec _ | .qExec _ => true
  | .tcnt _ | .toc1 _ | .toc2 _ | .toc3 _ | .toc4 _ | .tmsk _ | .tflg _ | .syncr _ | .picr _ | .pitr _ => true

/-- R187: "`STEP` is defined for every finite sequence of nested operations and every `n < 2^31`". -/
def EngineRun.wf (r : EngineRun) : Bool := decide (r.cycles < 2 ^ 31)

namespace Cfg

/-- Two runs of bytes, each an offset and a length, do not meet. -/
abbrev apart (a b : Nat × Nat) : Prop := a.1 + a.2 ≤ b.1 ∨ b.1 + b.2 ≤ a.1

/-- The bytes of the timer region's registers (R22). -/
def spansT (c : Cfg) : List (Nat × Nat) :=
  [(c.tDdrgp, 1), (c.tPortgp, 1), (c.tTcnt, 2), (c.tToc[0], 2), (c.tToc[1], 2), (c.tToc[2], 2), (c.tToc[3], 2),
    (c.tTmsk, 2), (c.tTflg, 2)]

/-- The bytes of the clock/system region's registers (R23). -/
def spansS (c : Cfg) : List (Nat × Nat) :=
  [(c.sSyncr, 2), (c.sDdre, 1), (c.sPepar, 1), (c.sDdrf, 1), (c.sPfpar, 1), (c.sPicr, 2), (c.sPitr, 2)]
    ++ c.sPorteData.map (·, 1) ++ c.sPortfData.map (·, 1)

/-- P5: each base even, each `base + size <= 0x100000`, the three windows pairwise disjoint. -/
abbrev WindowsOk (c : Cfg) : Prop :=
  c.tBase % 2 = 0 ∧ c.sBase % 2 = 0 ∧ c.qBase % 2 = 0 ∧
    c.tBase + 64 ≤ 0x100000 ∧ c.sBase + 128 ≤ 0x100000 ∧ c.qBase + 512 ≤ 0x100000 ∧
    apart (c.tBase, 64) (c.sBase, 128) ∧ apart (c.tBase, 64) (c.qBase, 512) ∧ apart (c.sBase, 128) (c.qBase, 512)

/-- P6 and P7: "16-bit registers at even offsets, no two registers overlap, all inside the window"; a set of data
offsets is not empty and is listed rising. -/
abbrev RegistersOk (c : Cfg) : Prop :=
  c.spansT.Pairwise apart ∧ (∀ x ∈ c.spansT, x.1 + x.2 ≤ 64 ∧ (x.2 = 2 → x.1 % 2 = 0)) ∧
    c.spansS.Pairwise apart ∧ (∀ x ∈ c.spansS, x.1 + x.2 ≤ 128 ∧ (x.2 = 2 → x.1 % 2 = 0)) ∧
    c.sPorteData ≠ [] ∧ c.sPorteData.Pairwise (· < ·) ∧ c.sPortfData ≠ [] ∧ c.sPortfData.Pairwise (· < ·)

/-- P8: every field lies inside its 16-bit register, a level field gives levels (0 to 7, R21) and a vector field gives
vectors (8 bits, P20), and the four channels have four bits (R14: "one per channel"). Log entry 16. -/
abbrev FieldsOk (c : Cfg) : Prop :=
  c.syncrW < 16 ∧ c.syncrX < 16 ∧ c.syncrYLo + c.syncrYWidth ≤ 16 ∧ c.picrLevelLo + c.picrLevelWidth ≤ 16 ∧
    c.picrLevelWidth ≤ 3 ∧ c.picrVectorLo + c.picrVectorWidth ≤ 16 ∧ c.picrVectorWidth ≤ 8 ∧ c.pitrPtp < 16 ∧ c.pitrModLo + c.pitrModWidth ≤ 16 ∧
    c.ocBit[0] < 16 ∧ c.ocBit[1] < 16 ∧ c.ocBit[2] < 16 ∧ c.ocBit[3] < 16 ∧
    [c.ocBit[0], c.ocBit[1], c.ocBit[2], c.ocBit[3]].Pairwise (· ≠ ·)

/-- P9 `> 0`, P13 "not in `0..255`", P14 (the target bytes of the image are `0xFF`, source §8), and the load value that
the image gives the periodic timer is an `i32` (R19, R36). -/
abbrev ValuesOk (c : Cfg) : Prop :=
  c.extClockHz ≠ 0 ∧ 256 ≤ c.autovector.toNat ∧
    (Machine.imageHalf c .timer c.tToc[0] = 0xFFFF ∧ Machine.imageHalf c .timer c.tToc[1] = 0xFFFF ∧
      Machine.imageHalf c .timer c.tToc[2] = 0xFFFF ∧ Machine.imageHalf c .timer c.tToc[3] = 0xFFFF) ∧
    Machine.resetPitLoad c ≤ Machine.i32Max

/-- The constraints of R4, in one place (`93_implementation_defined.md` U21: "state the well-formedness predicate
once"). -/
abbrev WF (c : Cfg) : Prop := c.WindowsOk ∧ c.RegistersOk ∧ c.FieldsOk ∧ c.ValuesOk

end Cfg

end Sys2Proof
end

