-- ==== Sys2Proof/Decode.lean ====
section
/-! DEFINITION. Decode.lean: from words to operations and back (`30_encoding.md` R60 to R69), total, rejecting by name. -/

namespace Sys2Proof

/-- Why a word is no operation (R66, R67). -/
inductive DecodeError where
  /-- `opc` is not listed in R61, or is a region operation with `r = 3` (R66). -/
  | illegalSelector
  /-- A bit of `A` or `D` the format does not use is not zero (R67). -/
  | unusedBitSet
  /-- The masked address of a register-access word selects no register of R22 and R23 (R64). -/
  | noRegister
  /-- A register-access word asks for an access its register's name does not have: a kind beyond the four, or 16 bits of
  an 8-bit register or from a register's second byte. DESIGN CHOICE (log entry 3): the same access by address, as a
  transaction word, is an operation. -/
  | badAccess
deriving DecidableEq, Repr

/-! ### Operand fields (R60, R63) -/

/-- The port number of format `PORT`: 0 `GP`, 1 `E`, 2 `F`, 3 `QS`. -/
def Port.ofBits (b : BitVec 2) : Port :=
  match b.toNat with
  | 0 => .gp
  | 1 => .e
  | 2 => .f
  | _ => .qs

def Port.toBits : Port → BitVec 2
  | .gp => 0
  | .e => 1
  | .f => 2
  | .qs => 3

/-- An operand word no bit of which is used must be zero (R67). -/
def unused (w : Word) (i : Instr) : Except DecodeError Instr := if w = 0 then .ok i else .error .unusedBitSet

/-- A byte operand in bits 7:0; the rest must be zero. -/
def byteOperand (d : Word) (f : Byte → Instr) : Except DecodeError Instr :=
  if d.extractLsb' 8 24 = 0 then .ok (f (d.extractLsb' 0 8)) else .error .unusedBitSet

/-- A 16-bit operand in bits 15:0; the rest must be zero. -/
def halfOperand (d : Word) (f : Half → Instr) : Except DecodeError Instr :=
  if d.extractLsb' 16 16 = 0 then .ok (f (d.extractLsb' 0 16)) else .error .unusedBitSet

/-- `A[1:0]` = port; the rest must be zero. -/
def portOperand (a : Word) (f : Port → Except DecodeError Instr) : Except DecodeError Instr :=
  if a.extractLsb' 2 30 = 0 then f (Port.ofBits (a.extractLsb' 0 2)) else .error .unusedBitSet

/-- `A[2:0]` = level; the rest must be zero. -/
def levelOperand (a : Word) (f : Level → Except DecodeError Instr) : Except DecodeError Instr :=
  if a.extractLsb' 3 29 = 0 then f (a.extractLsb' 0 3).toFin else .error .unusedBitSet

/-- `A` unused. -/
def noAddress (a : Word) (r : Except DecodeError Instr) : Except DecodeError Instr :=
  if a = 0 then r else .error .unusedBitSet

/-! ### Transaction words (R60, R61) -/

/-- `opc = TW[71:64]`, `A = TW[63:32]`, `D = TW[31:0]`. -/
def twOpc (w : BitVec 72) : BitVec 8 := w.extractLsb' 64 8
def twA (w : BitVec 72) : Word := w.extractLsb' 32 32
def twD (w : BitVec 72) : Word := w.extractLsb' 0 32

/-- The operation of the selector `opc` with the operand words `a` and `d`, the table of R61 row by row. -/
def decodeFields (opc : Nat) (a d : Word) : Except DecodeError Instr :=
  match opc with
  | 0x01 => unused d (.read8 a)
  | 0x02 => unused d (.read16 a)
  | 0x04 => unused d (.read32 a)
  | 0x11 => byteOperand d (.write8 a)
  | 0x12 => halfOperand d (.write16 a)
  | 0x14 => .ok (.write32 a d)
  | 0x22 => unused d (.fetch16 a)
  | 0x24 => unused d (.fetch32 a)
  | 0x28 => unused d (.rgnInrangeT a)
  | 0x29 => unused d (.rgnInrangeS a)
  | 0x2A => unused d (.rgnInrangeQ a)
  | 0x30 => unused d (.rgnR8T a)
  | 0x31 => unused d (.rgnR8S a)
  | 0x32 => unused d (.rgnR8Q a)
  | 0x34 => unused d (.rgnR16T a)
  | 0x35 => unused d (.rgnR16S a)
  | 0x36 => unused d (.rgnR16Q a)
  | 0x38 => byteOperand d (.rgnW8T a)
  | 0x39 => byteOperand d (.rgnW8S a)
  | 0x3A => byteOperand d (.rgnW8Q a)
  | 0x3C => halfOperand d (.rgnW16T a)
  | 0x3D => halfOperand d (.rgnW16S a)
  | 0x3E => halfOperand d (.rgnW16Q a)
  | 0x50 => portOperand a fun p => byteOperand d (.pSetdir p)
  | 0x51 => portOperand a fun p => byteOperand d (.pWritetx p)
  | 0x52 => portOperand a fun p => byteOperand d (.pWriterx p)
  | 0x53 => portOperand a fun p => unused d (.pRead p)
  | 0x54 => portOperand a fun p => byteOperand d (.pEnable p)
  | 0x60 => levelOperand a fun l => byteOperand d fun v => .inject v l
  | 0x61 => levelOperand a fun l => byteOperand d fun v => .haspend v l
  | 0x62 => levelOperand a fun l => unused d (.ack l)
  | 0x70 => noAddress a (unused d .sysStep)
  | 0x71 => noAddress a (.ok (.sysExec d))
  | 0x72 => noAddress a (unused d .sysReset)
  | 0x73 => noAddress a (halfOperand d .illegal)
  | 0x74 => noAddress a (unused d .resethook)
  | 0x75 => noAddress a (unused d .resetpc)
  | 0x76 => noAddress a (unused d .resetsp)
  | 0x78 => noAddress a (.ok (.tExec d))
  | 0x79 => noAddress a (.ok (.sExec d))
  | 0x7A => noAddress a (.ok (.qExec d))
  | _ => .error .illegalSelector

def decodeTw (w : BitVec 72) : Except DecodeError Instr := decodeFields (twOpc w).toNat (twA w) (twD w)

/-! ### Register-access words (R64, on the default map; log entry 3) -/

/-- The register whose byte range holds the masked address, on the default map, and whether the address is its second
byte (R64; the `match` and `mask` columns of the table's last 20 rows). -/
def registerAt (a : Nat) : Option (RegName × Bool) :=
  match a with
  | 0xFF906 => some (.ddrgp, false)
  | 0xFF907 => some (.portgp, false)
  | 0xFF90A => some (.tcnt, false)
  | 0xFF90B => some (.tcnt, true)
  | 0xFF914 => some (.toc1, false)
  | 0xFF915 => some (.toc1, true)
  | 0xFF916 => some (.toc2, false)
  | 0xFF917 => some (.toc2, true)
  | 0xFF918 => some (.toc3, false)
  | 0xFF919 => some (.toc3, true)
  | 0xFF91A => some (.toc4, false)
  | 0xFF91B => some (.toc4, true)
  | 0xFF920 => some (.tmsk, false)
  | 0xFF921 => some (.tmsk, true)
  | 0xFF922 => some (.tflg, false)
  | 0xFF923 => some (.tflg, true)
  | 0xFFA04 => some (.syncr, false)
  | 0xFFA05 => some (.syncr, true)
  | 0xFFA11 => some (.porte0, false)
  | 0xFFA13 => some (.porte1, false)
  | 0xFFA15 => some (.ddre, false)
  | 0xFFA17 => some (.pepar, false)
  | 0xFFA19 => some (.portf0, false)
  | 0xFFA1B => some (.portf1, false)
  | 0xFFA1D => some (.ddrf, false)
  | 0xFFA1F => some (.pfpar, false)
  | 0xFFA22 => some (.picr, false)
  | 0xFFA23 => some (.picr, true)
  | 0xFFA24 => some (.pitr, false)
  | 0xFFA25 => some (.pitr, true)
  | _ => none

/-- The default address of a register's first byte: the `match` column of its row. -/
def registerAddress : RegName → Nat
  | .ddrgp => 0xFF906
  | .portgp => 0xFF907
  | .tcnt => 0xFF90A
  | .toc1 => 0xFF914
  | .toc2 => 0xFF916
  | .toc3 => 0xFF918
  | .toc4 => 0xFF91A
  | .tmsk => 0xFF920
  | .tflg => 0xFF922
  | .syncr => 0xFFA04
  | .porte0 => 0xFFA11
  | .porte1 => 0xFFA13
  | .ddre => 0xFFA15
  | .pepar => 0xFFA17
  | .portf0 => 0xFFA19
  | .portf1 => 0xFFA1B
  | .ddrf => 0xFFA1D
  | .pfpar => 0xFFA1F
  | .picr => 0xFFA22
  | .pitr => 0xFFA24

/-- The instruction that is an access to a named register. -/
def RegName.instr : RegName → RegAccess → Instr
  | .ddrgp => .ddrgp
  | .portgp => .portgp
  | .tcnt => .tcnt
  | .toc1 => .toc1
  | .toc2 => .toc2
  | .toc3 => .toc3
  | .toc4 => .toc4
  | .tmsk => .tmsk
  | .tflg => .tflg
  | .syncr => .syncr
  | .porte0 => .porte0
  | .porte1 => .porte1
  | .ddre => .ddre
  | .pepar => .pepar
  | .portf0 => .portf0
  | .portf1 => .portf1
  | .ddrf => .ddrf
  | .pfpar => .pfpar
  | .picr => .picr
  | .pitr => .pitr

/-- The kind of access (bits 39:32 of a register-access word: 0 8-bit read, 1 8-bit write, 2 16-bit read, 3 16-bit
write) with its data (bits 55:40) at a register's lane. -/
def accessOf (kind : Nat) (lo : Bool) (data : Half) : Except DecodeError RegAccess :=
  match kind with
  | 0 => if data = 0 then .ok (.read8 lo) else .error .unusedBitSet
  | 1 => if data.extractLsb' 8 8 = 0 then .ok (.write8 lo (data.extractLsb' 0 8)) else .error .unusedBitSet
  | 2 => if lo then .error .badAccess else if data = 0 then .ok .read16 else .error .unusedBitSet
  | 3 => if lo then .error .badAccess else .ok (.write16 data)
  | _ => .error .badAccess

/-- A register-access word: the low 20 bits of its address select the register; bits 31:20 of the address are masked off
(R64, R165). -/
def decodeReg (w : BitVec 56) : Except DecodeError Instr :=
  match registerAt (w.extractLsb' 0 20).toNat with
  | none => .error .noRegister
  | some (n, lo) =>
    match accessOf (w.extractLsb' 32 8).toNat lo (w.extractLsb' 40 16) with
    | .error e => .error e
    | .ok acc => if (n.instr acc).wf then .ok (n.instr acc) else .error .badAccess

/-- The decoder: total, and rejecting by name. -/
def decode : OpWord → Except DecodeError Instr
  | .tw w => decodeTw w
  | .reg w => decodeReg w

/-! ### The encoder -/

/-- A transaction word from its three fields (R60). -/
def packTw (opc : BitVec 8) (a d : Word) : BitVec 72 := opc ++ a ++ d

/-- A byte, a 16-bit value, a port and a level as operand words, the unused bits zero. -/
def byteWord (v : Byte) : Word := v.setWidth 32
def halfWord (v : Half) : Word := v.setWidth 32
def portWord (p : Port) : Word := p.toBits.setWidth 32
def levelWord (l : Level) : Word := (BitVec.ofFin l : BitVec 3).setWidth 32

/-- A register-access word from its fields. -/
def packReg (addr : Word) (kind : BitVec 8) (data : Half) : BitVec 56 := data ++ kind ++ addr

/-- The word of an access to the register `n`, at its default address. -/
def encodeReg (n : RegName) : RegAccess → OpWord
  | .read8 lo => .reg (packReg (BitVec.ofNat 32 (registerAddress n + lo.toNat)) 0 0)
  | .write8 lo v => .reg (packReg (BitVec.ofNat 32 (registerAddress n + lo.toNat)) 1 (v.setWidth 16))
  | .read16 => .reg (packReg (BitVec.ofNat 32 (registerAddress n)) 2 0)
  | .write16 v => .reg (packReg (BitVec.ofNat 32 (registerAddress n)) 3 v)

/-- The word of an instruction (R60, R61, R64). -/
def encode : Instr → OpWord
  | .read8 a => .tw (packTw 0x01 a 0)
  | .read16 a => .tw (packTw 0x02 a 0)
  | .read32 a => .tw (packTw 0x04 a 0)
  | .write8 a v => .tw (packTw 0x11 a (byteWord v))
  | .write16 a v => .tw (packTw 0x12 a (halfWord v))
  | .write32 a v => .tw (packTw 0x14 a v)
  | .fetch16 a => .tw (packTw 0x22 a 0)
  | .fetch32 a => .tw (packTw 0x24 a 0)
  | .rgnInrangeT a => .tw (packTw 0x28 a 0)
  | .rgnInrangeS a => .tw (packTw 0x29 a 0)
  | .rgnInrangeQ a => .tw (packTw 0x2A a 0)
  | .rgnR8T a => .tw (packTw 0x30 a 0)
  | .rgnR8S a => .tw (packTw 0x31 a 0)
  | .rgnR8Q a => .tw (packTw 0x32 a 0)
  | .rgnR16T a => .tw (packTw 0x34 a 0)
  | .rgnR16S a => .tw (packTw 0x35 a 0)
  | .rgnR16Q a => .tw (packTw 0x36 a 0)
  | .rgnW8T a v => .tw (packTw 0x38 a (byteWord v))
  | .rgnW8S a v => .tw (packTw 0x39 a (byteWord v))
  | .rgnW8Q a v => .tw (packTw 0x3A a (byteWord v))
  | .rgnW16T a v => .tw (packTw 0x3C a (halfWord v))
  | .rgnW16S a v => .tw (packTw 0x3D a (halfWord v))
  | .rgnW16Q a v => .tw (packTw 0x3E a (halfWord v))
  | .pSetdir p m => .tw (packTw 0x50 (portWord p) (byteWord m))
  | .pWritetx p b => .tw (packTw 0x51 (portWord p) (byteWord b))
  | .pWriterx p b => .tw (packTw 0x52 (portWord p) (byteWord b))
  | .pRead p => .tw (packTw 0x53 (portWord p) 0)
  | .pEnable p m => .tw (packTw 0x54 (portWord p) (byteWord m))
  | .inject v l => .tw (packTw 0x60 (levelWord l) (byteWord v))
  | .haspend v l => .tw (packTw 0x61 (levelWord l) (byteWord v))
  | .ack l => .tw (packTw 0x62 (levelWord l) 0)
  | .sysStep => .tw (packTw 0x70 0 0)
  | .sysExec d => .tw (packTw 0x71 0 d)
  | .sysReset => .tw (packTw 0x72 0 0)
  | .illegal op => .tw (packTw 0x73 0 (halfWord op))
  | .resethook => .tw (packTw 0x74 0 0)
  | .resetpc => .tw (packTw 0x75 0 0)
  | .resetsp => .tw (packTw 0x76 0 0)
  | .tExec d => .tw (packTw 0x78 0 d)
  | .sExec d => .tw (packTw 0x79 0 d)
  | .qExec d => .tw (packTw 0x7A 0 d)
  | .ddrgp acc => encodeReg .ddrgp acc
  | .portgp acc => encodeReg .portgp acc
  | .tcnt acc => encodeReg .tcnt acc
  | .toc1 acc => encodeReg .toc1 acc
  | .toc2 acc => encodeReg .toc2 acc
  | .toc3 acc => encodeReg .toc3 acc
  | .toc4 acc => encodeReg .toc4 acc
  | .tmsk acc => encodeReg .tmsk acc
  | .tflg acc => encodeReg .tflg acc
  | .syncr acc => encodeReg .syncr acc
  | .porte0 acc => encodeReg .porte0 acc
  | .porte1 acc => encodeReg .porte1 acc
  | .ddre acc => encodeReg .ddre acc
  | .pepar acc => encodeReg .pepar acc
  | .portf0 acc => encodeReg .portf0 acc
  | .portf1 acc => encodeReg .portf1 acc
  | .ddrf acc => encodeReg .ddrf acc
  | .pfpar acc => encodeReg .pfpar acc
  | .picr acc => encodeReg .picr acc
  | .pitr acc => encodeReg .pitr acc

/-! ### Words as the opcode table numbers them -/

/-- The word of `nbits` bits with the value `w`: the table's first 41 rows are 72 bits wide, its register-decode rows 20
(24 in whole bytes), and every bit above is zero. -/
def tableWord (nbits w : Nat) : OpWord :=
  if nbits ≤ 32 then .reg (BitVec.ofNat 56 w) else .tw (BitVec.ofNat 72 w)

/-- The instruction the decoder reads from a word of the table. A transaction word is one word (R60, R69), so there is no
byte order to lay out. -/
def decodeTableWord (nbits w : Nat) : Option Instr :=
  match decode (tableWord nbits w) with
  | .ok i => some i
  | .error _ => none

end Sys2Proof
end

