-- ==== Sys2Proof/Machine/Memory.lean ====
section
/-! DEFINITION. Machine/Memory.lean: a storage of a region as a list of (offset, byte) pairs in one canonical form. -/

namespace Sys2Proof.Machine

/-- The byte at offset `a`; an unlisted offset reads as `d a`, the region's reset image (P14). -/
def memRead (d : Nat → Byte) : List Host.Cell → Nat → Byte
  | [], a => d a
  | (x, b) :: rest, a => if a = x then b else memRead d rest a

/-- Stores `b` at offset `a`; storing what an unlisted offset reads as leaves `a` unlisted. -/
def memWrite (d : Nat → Byte) : List Host.Cell → Nat → Byte → List Host.Cell
  | [], a, b => if b = d a then [] else [(a, b)]
  | (x, c) :: rest, a, b =>
    if a < x then (if b = d a then (x, c) :: rest else (a, b) :: (x, c) :: rest)
    else if a = x then (if b = d a then rest else (a, b) :: rest)
    else (x, c) :: memWrite d rest a b

/-- The canonical form of a storage of `size` bytes: offsets strictly rising and inside the window, and no entry equal to
what an unlisted offset reads as. -/
abbrev Memory.wf (d : Nat → Byte) (size : Nat) (m : List Host.Cell) : Prop :=
  m.Pairwise (·.1 < ·.1) ∧ ∀ c ∈ m, c.1 < size ∧ c.2 ≠ d c.1

end Sys2Proof.Machine
end

