-- ==== Sys2Proof/Machine/State.lean ====
section
/-! DEFINITION. Machine/State.lean: the whole state of the core (`10_state.md` R10), the environment the step reads, the
reasons a step can stop, and the state after reset (R36). -/

namespace Sys2Proof.Machine

/-- Faults: none. "The core raises no synchronous exception and has no fault mechanism" (R200): the type has no
constructor, so no operation can end in a fault. Nobody raises one; safe. -/
inductive Fault where
deriving DecidableEq, Repr

/-- Refusals, the spec's `refuse(reason)` (R7): the operation is outside the domain the spec gives a meaning to. -/
inductive Refusal where
  /-- An instruction without a meaning: raised by no arm of `exec` in this model. Safe: no successor state. -/
  | notModelled (mnemonic : String)
  /-- `refuse(misaligned)`: raised by a 16-bit access (or half of a 32-bit one) whose masked address is odd and claimed,
  and by `RGN.R16`/`RGN.W16` at an odd address (R43, R176; U3). Safe: no successor state. -/
  | misaligned
  /-- `refuse(out-of-range)`: raised by a region operation with a byte outside its region (R88; U1). Safe. -/
  | outOfRange
  /-- `refuse(i32-range)`: raised by an exec step, or a recomputation of the periodic timer, whose result is no `i32`, and
  by an elapsed-cycle operand of `2^31` or more (R8 (d), R123, R135, R181; U4, U5, U20). Safe. -/
  | i32Range
  /-- `refuse(illegal-operation)`: raised by the step on a word the decoder rejects (R66, R67; U2). Safe. -/
  | illegalOperation
  /-- `refuse(nested-step)`: raised when a listener issues `STEP`, `EXEC` or `RESET` from inside an event (R235; U11).
  Safe. -/
  | nestedStep
  /-- Raised by the step when the configuration violates a constraint of R4 (U21). Safe. -/
  | badConfig
deriving DecidableEq, Repr

/-- The state of one port (R16); bit `i` is pin `i`. -/
structure PortState where
  direction : Byte
  enabledPins : Byte
  data : Byte
  writeCounter : BitVec 64
deriving DecidableEq, Repr

/-- The events of the output trace (R34). -/
inductive Event where
  | dirChange (p : Port) (d : Byte)
  | txWrite (p : Port) (v : Byte)
  | irqLine (l : Level)
deriving DecidableEq, Repr

/-- The result of an operation (R60, last column). -/
inductive Result where
  | none
  | bit (b : Bool)
  | byte (v : Byte)
  | half (v : Half)
  | word (v : Word)
  | action (a : RecoveryAction)
deriving DecidableEq, Repr

/-- What a listener may do at an event: the external-side operations of R54, and the three it must not issue (R235). -/
inductive Reaction where
  | writeRx (p : Port) (b : Byte)
  | inject (vec : Byte) (lvl : Level)
  | replaceHook (p : Port) (h : Hook)
  | step
  | exec (delta : Word)
  | reset
deriving DecidableEq, Repr

/-- What the host does next (R193): an operation, by its word; the replacement of a read hook "at any time" (R102); or one
of the two outbound calls to the engine that no rule makes, `setProgramCounter` and `pulseReset` (R189, R190). -/
inductive Request where
  | word (w : OpWord)
  | replaceHook (p : Port) (h : Hook)
  | setProgramCounter (address : Word)
  | pulseReset
deriving DecidableEq, Repr

/-- The state. The first group is the record of R10, field by field; the second is the configuration (R4), which no
operation changes; the third is the environment's part of a run as data (R33), and the model's own counter of free values. -/
structure State where
  /-- `Stor(T)`, `Stor(S)`, `Stor(Q)`: an unlisted offset reads as the reset image (P14) -/
  storT : List Host.Cell
  storS : List Host.Cell
  storQ : List Host.Cell
  /-- `port[p]` -/
  portGp : PortState
  portE : PortState
  portF : PortState
  portQs : PortState
  /-- `acc[k]`, an `i32` each, exact (R8 (d)) -/
  acc : Vector Int 4
  cycles : BitVec 64
  sysclk : Nat
  pitLoad : Int
  pitCur : Int
  /-- `queue[l]`, front first -/
  queue : Vector (List Byte) 8
  irq : Level
  /-- the output trace, oldest event first -/
  out : List Event
  /-- used by the legacy timer variant only (R35) -/
  prevTcnt : Half
  /-- `Cfg` -/
  cfg : Cfg
  /-- `H_RX[p]`, the read hook each port has now (P16) -/
  hookGp : Hook
  hookE : Hook
  hookF : Hook
  hookQs : Hook
  /-- the result of the last operation, as its issuer received it (R60) -/
  result : Result
  /-- the results the engine received during the last `STEP`, in order (R180) -/
  engineResults : List Result
  /-- what the host issues next, first one first (R33, R196) -/
  requests : List Request
  /-- the engine's answers to the next calls of `runOneInstruction()` (R187) -/
  engine : List EngineRun
  /-- what the listeners do at the next events, one entry per event (R54) -/
  reactions : List (List Reaction)
  /-- how many free values have been drawn -/
  freeCount : Nat
deriving DecidableEq, Repr

/-- The state right after `RESET` under the configuration `c` (R36, R221), with an environment that issues nothing and the
default hooks. -/
def State.boot (c : Cfg) : State where
  storT := []
  storS := []
  storQ := []
  portGp := ⟨resetDirection c .gp, resetEnabled c .gp, 0x00, 0⟩
  portE := ⟨resetDirection c .e, resetEnabled c .e, 0x00, 0⟩
  portF := ⟨resetDirection c .f, resetEnabled c .f, 0x00, 0⟩
  portQs := ⟨resetDirection c .qs, resetEnabled c .qs, 0x00, 0⟩
  acc := #v[0, 0, 0, 0]
  cycles := 0
  sysclk := resetSysclk c
  pitLoad := resetPitLoad c
  pitCur := resetPitLoad c
  queue := #v[[], [], [], [], [], [], [], []]
  irq := 0
  out := []
  prevTcnt := 0
  cfg := c
  hookGp := .identity
  hookE := .identity
  hookF := .identity
  hookQs := .identity
  result := .none
  engineResults := []
  requests := []
  engine := []
  reactions := []
  freeCount := 0

/-- The machine after reset, on the default configuration (R4, R36). -/
def State.reset : State := State.boot Cfg.default

end Sys2Proof.Machine
end

