-- ==== Sys2Proof/Machine/Operands.lean ====
section
/-! DEFINITION. Machine/Operands.lean: address operands: masking and routing (`45_dispatch.md` R165, R166), the region's
range test (R81), and the register decode (R64) under any configuration. -/

namespace Sys2Proof.Machine

/-- `Mask(addr) = zext_32(addr[19:0])` (R165; P1). -/
def busMask (addr : Word) : Nat := (addr.extractLsb' 0 20).toNat

/-- `base(r) <= addr < base(r) + size(r)`, over the natural numbers (R81). -/
def inRange (c : Cfg) (r : Region) (addr : Nat) : Bool :=
  decide (regionBase c r ≤ addr) && decide (addr < regionBase c r + regionSize r)

/-- `Route(a)` (R166): the first of timer, clock/system, serial whose window holds `a`. -/
def route (c : Cfg) (a : Nat) : Option Region :=
  if inRange c .timer a then some .timer
  else if inRange c .sys a then some .sys
  else if inRange c .serial a then some .serial
  else none

/-- `o = addr - base(r)` (R62). -/
def offsetIn (c : Cfg) (r : Region) (addr : Nat) : Nat := addr - regionBase c r

/-- The second half's address, `(addr + 2) mod 2^32` (R169, R172). -/
def secondHalf (addr : Word) : Word := addr + 2

/-! ### Register decode (R22, R23, R64) -/

/-- The registers that have a behaviour. -/
inductive Reg where
  | dir (p : Port)
  | data (p : Port)
  | assign (p : Port)
  | tcnt
  | toc (k : Channel)
  | tmsk
  | tflg
  | syncr
  | picr
  | pitr
deriving DecidableEq, Repr

/-- `o` lies in the two bytes of the 16-bit register at `x`. -/
def covers16 (x o : Nat) : Bool := decide (o = x) || decide (o = x + 1)

/-- The timer region's register at offset `o` (R22). -/
def regAtT (c : Cfg) (o : Nat) : Option Reg :=
  if o = c.tDdrgp then some (.dir .gp)
  else if o = c.tPortgp then some (.data .gp)
  else if covers16 c.tTcnt o then some .tcnt
  else if covers16 c.tToc[0] o then some (.toc 0)
  else if covers16 c.tToc[1] o then some (.toc 1)
  else if covers16 c.tToc[2] o then some (.toc 2)
  else if covers16 c.tToc[3] o then some (.toc 3)
  else if covers16 c.tTmsk o then some .tmsk
  else if covers16 c.tTflg o then some .tflg
  else none

/-- The clock/system region's register at offset `o` (R23). -/
def regAtS (c : Cfg) (o : Nat) : Option Reg :=
  if covers16 c.sSyncr o then some .syncr
  else if o ∈ c.sPorteData then some (.data .e)
  else if o = c.sDdre then some (.dir .e)
  else if o = c.sPepar then some (.assign .e)
  else if o ∈ c.sPortfData then some (.data .f)
  else if o = c.sDdrf then some (.dir .f)
  else if o = c.sPfpar then some (.assign .f)
  else if covers16 c.sPicr o then some .picr
  else if covers16 c.sPitr o then some .pitr
  else none

/-- The register whose byte range contains offset `o` of region `r`, if any; the serial region has none (R24). -/
def regAt (c : Cfg) : Region → Nat → Option Reg
  | .timer, o => regAtT c o
  | .sys, o => regAtS c o
  | .serial, _ => none

/-- The region and offset of a named register; the second name of a two-address data register is its second offset. -/
def namedAt (c : Cfg) : RegName → Region × Nat
  | .ddrgp => (.timer, c.tDdrgp)
  | .portgp => (.timer, c.tPortgp)
  | .tcnt => (.timer, c.tTcnt)
  | .toc1 => (.timer, c.tToc[0])
  | .toc2 => (.timer, c.tToc[1])
  | .toc3 => (.timer, c.tToc[2])
  | .toc4 => (.timer, c.tToc[3])
  | .tmsk => (.timer, c.tTmsk)
  | .tflg => (.timer, c.tTflg)
  | .syncr => (.sys, c.sSyncr)
  | .porte0 => (.sys, c.sPorteData.headD 0)
  | .porte1 => (.sys, c.sPorteData.getD 1 (c.sPorteData.headD 0))
  | .ddre => (.sys, c.sDdre)
  | .pepar => (.sys, c.sPepar)
  | .portf0 => (.sys, c.sPortfData.headD 0)
  | .portf1 => (.sys, c.sPortfData.getD 1 (c.sPortfData.headD 0))
  | .ddrf => (.sys, c.sDdrf)
  | .pfpar => (.sys, c.sPfpar)
  | .picr => (.sys, c.sPicr)
  | .pitr => (.sys, c.sPitr)

/-- The bus address of a named register, `base + offset` (R70: "`WRITE16 TOC1, 0x0100` means `WRITE16 T_BASE + T_TOC[0],
0x0100`"). -/
def namedAddress (c : Cfg) (n : RegName) : Word :=
  BitVec.ofNat 32 (regionBase c (namedAt c n).1 + (namedAt c n).2)

/-- The address of the byte an 8-bit access to a named register reaches. -/
def laneAddress (c : Cfg) (n : RegName) (lo : Bool) : Word := namedAddress c n + BitVec.ofNat 32 lo.toNat

end Sys2Proof.Machine
end

