-- ==== Sys2Proof/Machine/Storage.lean ====
section
/-! DEFINITION. Machine/Storage.lean: the accessors of the state: bytes and 16-bit values of the storages (`00_scope.md`
R7), ports, hooks, accumulators, queues, the trace. -/

namespace Sys2Proof.Machine

/-- `Stor(r)`. -/
def State.stor (s : State) : Region → List Host.Cell
  | .timer => s.storT
  | .sys => s.storS
  | .serial => s.storQ

def State.setStor (s : State) (r : Region) (m : List Host.Cell) : State :=
  match r with
  | .timer => { s with storT := m }
  | .sys => { s with storS := m }
  | .serial => { s with storQ := m }

/-- `Stor(r)[o]`: the storage byte at offset `o`. -/
def State.byteAt (s : State) (r : Region) (o : Nat) : Byte := memRead (imageByte s.cfg r) (s.stor r) o

/-- `Stor(r)[o] <- b`. -/
def State.setByte (s : State) (r : Region) (o : Nat) (b : Byte) : State :=
  s.setStor r (memWrite (imageByte s.cfg r) (s.stor r) o b)

/-- `Reg16(r, o) = Stor(r)[o] ++ Stor(r)[o + 1]`, big-endian (R7, R41). -/
def State.reg16 (s : State) (r : Region) (o : Nat) : Half := joinBytes (s.byteAt r o) (s.byteAt r (o + 1))

/-- Both bytes of a 16-bit value, the high one at the lower offset (R41). -/
def State.setReg16 (s : State) (r : Region) (o : Nat) (v : Half) : State :=
  (s.setByte r o (hiByte v)).setByte r (o + 1) (loByte v)

/-- `port[p]`. -/
def State.port (s : State) : Port → PortState
  | .gp => s.portGp
  | .e => s.portE
  | .f => s.portF
  | .qs => s.portQs

def State.setPort (s : State) (p : Port) (v : PortState) : State :=
  match p with
  | .gp => { s with portGp := v }
  | .e => { s with portE := v }
  | .f => { s with portF := v }
  | .qs => { s with portQs := v }

/-- `H_RX[p]` as it stands. -/
def State.hook (s : State) : Port → Hook
  | .gp => s.hookGp
  | .e => s.hookE
  | .f => s.hookF
  | .qs => s.hookQs

def State.setHook (s : State) (p : Port) (h : Hook) : State :=
  match p with
  | .gp => { s with hookGp := h }
  | .e => { s with hookE := h }
  | .f => { s with hookF := h }
  | .qs => { s with hookQs := h }

def State.setAcc (s : State) (k : Channel) (a : Int) : State := { s with acc := s.acc.set k a }

def State.setQueue (s : State) (l : Level) (q : List Byte) : State := { s with queue := s.queue.set l q }

def State.setIrq (s : State) (l : Level) : State := { s with irq := l }

/-- Appends an event to the trace (R7, R34). -/
def State.log (s : State) (e : Event) : State := { s with out := s.out ++ [e] }

def State.setResult (s : State) (r : Result) : State := { s with result := r }

/-- The function a hook is. -/
def hookValue : Hook → Byte → Byte
  | .identity, b => b
  | .custom n, b => Config.readHook n b

/-- The largest `l` in 7, 6, .., 1 with a non-empty queue, or 0 (R153). -/
def highest (q : Vector (List Byte) 8) : Level :=
  if q[7] ≠ [] then 7
  else if q[6] ≠ [] then 6
  else if q[5] ≠ [] then 5
  else if q[4] ≠ [] then 4
  else if q[3] ≠ [] then 3
  else if q[2] ≠ [] then 2
  else if q[1] ≠ [] then 1
  else 0

end Sys2Proof.Machine
end

