-- ==== Sys2Proof/Machine/Flags.lean ====
section
/-! DEFINITION. Machine/Flags.lean: the four output-compare flags and masks (`10_state.md` R14, R28), and the channel
states read off them (`42_timer.md` R112, R113). -/

namespace Sys2Proof.Machine

/-- Bit `OC_BIT(k)` of `TFLG`: channel `k` is `FINISHED` (R14, R112). -/
def State.flag (s : State) (k : Channel) : Bool := (s.reg16 .timer s.cfg.tTflg).getLsbD s.cfg.ocBit[k]

/-- Bit `OC_BIT(k)` of `TMSK`: channel `k`'s interrupt is enabled (R28, R117). -/
def State.mask (s : State) (k : Channel) : Bool := (s.reg16 .timer s.cfg.tTmsk).getLsbD s.cfg.ocBit[k]

/-- Sets bit `OC_BIT(k)` of `TFLG` in storage, with no side effect (R118). -/
def State.setFlag (s : State) (k : Channel) : State :=
  s.setReg16 .timer s.cfg.tTflg (s.reg16 .timer s.cfg.tTflg ||| BitVec.twoPow 16 s.cfg.ocBit[k])

/-- `Target(k)`, recomputed from storage each time it is used (R113). -/
def State.target (s : State) (k : Channel) : Int := targetCycles (s.reg16 .timer s.cfg.tToc[k])

/-- `ARMED(k)` (R112). -/
def State.armed (s : State) (k : Channel) : Bool := !s.flag k && decide (s.acc[k] < s.target k)

/-- `DUE(k)` (R112): the next exec step finishes the channel. -/
def State.due (s : State) (k : Channel) : Bool := !s.flag k && decide (s.acc[k] ≥ s.target k)

end Sys2Proof.Machine
end

