-- ==== Sys2Proof/Machine/Ops.lean ====
section
/-! DEFINITION. Machine/Ops.lean: the shared operations over the state: events and the listeners' reactions to them, the
interrupt arbiter (raising, requesting, acknowledging), the ports, the counter and its channels, the clock and periodic
timer, the region accesses and the bus. Each follows the pseudocode of the rule it names. -/

namespace Sys2Proof.Machine

/-! ### Interrupt request and events (`44_interrupt_arbiter.md`, `10_state.md` R34, `20_memory.md` R54)

An operation that emits an event runs the listeners' reaction at the event's point. A reaction may inject an interrupt,
which emits an event of its own. So the emitter `em` is an argument of `rescanWith`, `injectWith` and `react`, and `emit`
closes the circle, with one turn allowed for every reaction that is pending. -/

/-- `Rescan()` (R153): drives the highest non-empty level, and reports it also when it does not change. -/
def rescanWith (em : Event → State → Except Refusal State) (s : State) : Except Refusal State :=
  em (.irqLine (highest s.queue)) (s.setIrq (highest s.queue))

/-- `Inject(vec, lvl)` (R150): appends at the back of the level's queue, then rescans. -/
def injectWith (em : Event → State → Except Refusal State) (vec : Byte) (lvl : Level) (s : State) :
    Except Refusal State :=
  rescanWith em (s.setQueue lvl (s.queue[lvl] ++ [vec]))

/-- `PortWriteRx(p, b)` (R92): only enabled input pins follow the outside; no event, no counter. -/
def portWriteRx (p : Port) (b : Byte) (s : State) : State :=
  let m := ~~~(s.port p).direction &&& (s.port p).enabledPins
  s.setPort p { s.port p with data := ((s.port p).data &&& ~~~m) ||| (b &&& m) }

/-- One thing a listener does at an event (R54); a nested `STEP`, `EXEC` or `RESET` is refused (R235; U11). -/
def react (em : Event → State → Except Refusal State) (s : State) : Reaction → Except Refusal State
  | .writeRx p b => .ok (portWriteRx p b s)
  | .inject vec lvl => injectWith em vec lvl s
  | .replaceHook p h => .ok (s.setHook p h)
  | .step => .error .nestedStep
  | .exec _ => .error .nestedStep
  | .reset => .error .nestedStep

/-- What a listener does at one event, in order. -/
def reactAll (em : Event → State → Except Refusal State) : List Reaction → State → Except Refusal State
  | [], s => .ok s
  | r :: rs, s =>
    match react em s r with
    | .error e => .error e
    | .ok s1 => reactAll em rs s1

/-- `emit e`, with at most `n` reactions to come: appends the event, then runs the reaction pending for it, if any. -/
def emitWithin : Nat → Event → State → Except Refusal State
  | 0, e, s => .ok (s.log e)
  | n + 1, e, s =>
    match s.reactions with
    | [] => .ok (s.log e)
    | rs :: later => reactAll (emitWithin n) rs ({ s with reactions := later }.log e)

/-- `emit e` (R7, R34): "an event stands at that point of the operation", and so do the reactions to it (R54). -/
def emit (e : Event) (s : State) : Except Refusal State := emitWithin s.reactions.length e s

/-- `Rescan()` (R153). -/
def rescan (s : State) : Except Refusal State := rescanWith emit s

/-- RAISING AN INTERRUPT, `Inject(vec, lvl)` (R150, R204): the one way a vector becomes pending. -/
def injectVector (vec : Byte) (lvl : Level) (s : State) : Except Refusal State := injectWith emit vec lvl s

/-- `HasPending(vec, lvl)` (R151). -/
def hasPending (vec : Byte) (lvl : Level) (s : State) : Bool := decide (vec ∈ s.queue[lvl])

/-- Raises `vec` unless it is already pending at that level: the duplicate check of R120 and R136. -/
def raiseOnce (vec : Byte) (lvl : Level) (s : State) : Except Refusal State :=
  if hasPending vec lvl s then .ok s else injectVector vec lvl s

/-- TAKING AN INTERRUPT, the core's whole part of it, `Ack(lvl)` (R152, R207): pops the front of the addressed queue, clears
the request line, rescans, and answers the vector; on an empty queue it answers the autovector sentinel and changes
nothing (R158). The core saves nothing and has no return from an interrupt (R209). -/
def ackLevel (lvl : Level) (s : State) : Except Refusal (Word × State) :=
  match s.queue[lvl] with
  | [] => .ok (s.cfg.autovector, s)
  | vec :: rest =>
    match emit (.irqLine 0) ((s.setQueue lvl rest).setIrq 0) with
    | .error e => .error e
    | .ok s1 =>
      match rescan s1 with
      | .error e => .error e
      | .ok s2 => .ok (vec.setWidth 32, s2)

/-! ### Ports (`41_gpio_port.md`) -/

/-- `PortSetDir(p, m)` (R90). -/
def portSetDir (p : Port) (m : Byte) (s : State) : Except Refusal State :=
  emit (.dirChange p m) (s.setPort p { s.port p with direction := m })

/-- The data after a write from the CPU side: enabled output pins take the written bits (R91). -/
def txData (q : PortState) (b : Byte) : Byte :=
  (q.data &&& ~~~(q.direction &&& q.enabledPins)) ||| (b &&& (q.direction &&& q.enabledPins))

/-- `writeCounter + 1` (R91); at `2^64 - 1` the spec gives no next value, and a free value follows (R8 (g), U12). -/
def bumpWriteCounter (p : Port) (s : State) : State :=
  if (s.port p).writeCounter = BitVec.allOnes 64 then
    { s.setPort p { s.port p with writeCounter := Config.writeCounterPastEnd s.freeCount } with freeCount := s.freeCount + 1 }
  else s.setPort p { s.port p with writeCounter := (s.port p).writeCounter + 1 }

/-- `PortWriteTx(p, b)` (R91): data, then counter, then the event, which sees both. -/
def portWriteTx (p : Port) (b : Byte) (s : State) : Except Refusal State :=
  let d := txData (s.port p) b
  emit (.txWrite p d) (bumpWriteCounter p (s.setPort p { s.port p with data := d }))

/-- `PortRead(p) = H_RX[p](port[p].data)` (R93). -/
def portRead (p : Port) (s : State) : Byte := hookValue (s.hook p) (s.port p).data

/-- `PortEnable(p, m)` (R94). -/
def portEnable (p : Port) (m : Byte) (s : State) : State := s.setPort p { s.port p with enabledPins := m }

/-! ### Timer and output compare (`42_timer.md`) -/

/-- `TcntValue() = (cycles >> 2)[15:0]` (R110). -/
def tcntValue (s : State) : Half := s.cycles.extractLsb' 2 16

/-- `Resync(k)` (R114). -/
def resync (k : Channel) (s : State) : State := s.setAcc k (resyncValue (s.target k) s.acc[k])

/-- `ResyncAll()` (R116). -/
def resyncAll (s : State) : State := resync 3 (resync 2 (resync 1 (resync 0 s)))

/-- `RaiseTimer(k)` (R120): the vector is `(T_VEC_BASE + k)[7:0]`. -/
def raiseTimer (k : Channel) (s : State) : Except Refusal State :=
  raiseOnce (s.cfg.tVecBase + BitVec.ofNat 8 k.val) s.cfg.tLevel s

/-- The flag's part of `ExecChannel` (R118): "set once", and the interrupt if the mask bit is 1 at that moment. -/
def finishChannel (k : Channel) (s : State) : Except Refusal State :=
  if s.due k then
    if (s.setFlag k).mask k then raiseTimer k (s.setFlag k) else .ok (s.setFlag k)
  else .ok s

/-- `ExecChannel(k, delta)` (R118, R123). -/
def execChannel (delta : Nat) (k : Channel) (s : State) : Except Refusal State :=
  if s.acc[k] + delta > i32Max then .error .i32Range
  else finishChannel k (s.setAcc k (s.acc[k] + delta))

/-- `ExecChannel` for the channels of a list, in order. -/
def execChannels (delta : Nat) : List Channel → State → Except Refusal State
  | [], s => .ok s
  | k :: ks, s =>
    match execChannel delta k s with
    | .error e => .error e
    | .ok s1 => execChannels delta ks s1

/-- The channels the exec step visits, ascending (R119). -/
def activeChannels : ActiveOc → List Channel
  | .two => [0, 1]
  | .four => [0, 1, 2, 3]

/-- Injects the vectors of the channels of a list, with no duplicate check (R122). -/
def injectChannels : List Channel → State → Except Refusal State
  | [], s => .ok s
  | k :: ks, s =>
    match injectVector (s.cfg.tVecBase + BitVec.ofNat 8 k.val) s.cfg.tLevel s with
    | .error e => .error e
    | .ok s1 => injectChannels ks s1

/-- `LegacyExec()` (R122): all four interrupts when the counter is lower than at the previous step. -/
def legacyExec (s : State) : Except Refusal State :=
  match (if tcntValue s < s.prevTcnt then injectChannels [0, 1, 2, 3] s else .ok s) with
  | .error e => .error e
  | .ok s1 => .ok { s1 with prevTcnt := tcntValue s }

/-- `T.EXEC delta` (R119), for an elapsed count below `2^31`. -/
def timerExec (delta : Nat) (s : State) : Except Refusal State :=
  if delta ≥ 2 ^ 31 then .error .i32Range
  else
    match s.cfg.variant with
    | .multichannel => execChannels delta (activeChannels s.cfg.activeOc) s
    | .legacy => legacyExec s

/-! ### Clock and periodic timer (`43_clock_pit.md`) -/

/-- `PitLoad(State)` (R133). -/
def pitLoadNow (s : State) : Int :=
  pitLoadOf s.cfg (s.reg16 .sys s.cfg.sPicr) (s.reg16 .sys s.cfg.sPitr) s.sysclk

/-- `PitRecompute()` (R134): both fields take the load value; a load value that is no `i32` is refused (R8 (d)). -/
def pitRecompute (s : State) : Except Refusal State :=
  if pitLoadNow s > i32Max then .error .i32Range
  else .ok { s with pitLoad := pitLoadNow s, pitCur := pitLoadNow s }

/-- `ClockUpdate()` (R132). -/
def clockUpdate (s : State) : Except Refusal State :=
  pitRecompute { s with sysclk := clockOf s.cfg (s.reg16 .sys s.cfg.sSyncr) }

/-- `RaisePit()` (R136): level and vector are read from the register at the moment of firing. -/
def raisePit (s : State) : Except Refusal State :=
  let c := s.reg16 .sys s.cfg.sPicr
  raiseOnce (picrVector s.cfg c) (picrLevel s.cfg c) s

/-- `S.EXEC delta` (R135), for an elapsed count below `2^31`. -/
def clockExec (delta : Nat) (s : State) : Except Refusal State :=
  if delta ≥ 2 ^ 31 then .error .i32Range
  else if s.pitLoad = 0 then .ok s
  else if s.pitCur - delta < i32Min then .error .i32Range
  else if s.pitCur - delta > 0 then .ok { s with pitCur := s.pitCur - delta }
  else
    match raisePit { s with pitCur := s.pitCur - delta } with
    | .error e => .error e
    | .ok s1 => .ok { s1 with pitCur := s1.pitCur + s1.pitLoad }

/-! ### Region accesses (`40_mmio_region.md`) -/

/-- `LaneRead(r, o)` (R86). -/
def laneRead (r : Region) (o : Nat) (s : State) : Byte :=
  match regAt s.cfg r o with
  | some .tcnt => if o = s.cfg.tTcnt then hiByte (tcntValue s) else loByte (tcntValue s)
  | some (.data p) => portRead p s
  | _ => s.byteAt r o

/-- A 16-bit read, lane by lane in ascending offset order (R83). -/
def regionRead16 (r : Region) (o : Nat) (s : State) : Half := joinBytes (laneRead r o s) (laneRead r (o + 1) s)

/-- Step 1 of `RgnWrite` for one byte: `Tcnt` is read-only and keeps its storage (R87, R111). -/
def storeByte (r : Region) (o : Nat) (b : Byte) (s : State) : State :=
  if r = .timer ∧ covers16 s.cfg.tTcnt o = true then s else s.setByte r o b

/-- Step 2 of `RgnWrite` for one register, touched at offset `o` (R87). In the legacy timer variant "target and flag writes
have no side effect" (R122). -/
def sideEffect (r : Region) (o : Nat) (g : Option Reg) (s : State) : Except Refusal State :=
  match g with
  | some (.dir p) => portSetDir p (s.byteAt r o) s
  | some (.data p) => portWriteTx p (s.byteAt r o) s
  | some (.assign p) => .ok (portEnable p (~~~(s.byteAt r o)) s)
  | some (.toc k) =>
    match s.cfg.variant with
    | .multichannel => .ok (resync k s)
    | .legacy => .ok s
  | some .tflg =>
    match s.cfg.variant with
    | .multichannel => .ok (resyncAll s)
    | .legacy => .ok s
  | some .syncr => clockUpdate s
  | some .picr => pitRecompute s
  | some .pitr => pitRecompute s
  | some .tcnt => .ok s
  | some .tmsk => .ok s
  | none => .ok s

/-- `RgnWrite(r, o, 1, v)` (R84, R87). -/
def regionWrite8 (r : Region) (o : Nat) (v : Byte) (s : State) : Except Refusal State :=
  sideEffect r o (regAt s.cfg r o) (storeByte r o v s)

/-- `RgnWrite(r, o, 2, v)` (R85, R87): both bytes are stored first; then the side effect of each register touched, once,
in ascending order. -/
def regionWrite16 (r : Region) (o : Nat) (v : Half) (s : State) : Except Refusal State :=
  let stored := storeByte r (o + 1) (loByte v) (storeByte r o (hiByte v) s)
  if regAt s.cfg r o = regAt s.cfg r (o + 1) then sideEffect r o (regAt s.cfg r o) stored
  else
    match sideEffect r o (regAt s.cfg r o) stored with
    | .error e => .error e
    | .ok s1 => sideEffect r (o + 1) (regAt s.cfg r (o + 1)) s1

/-! ### The bus (`45_dispatch.md`) -/

/-- `READ8 addr` (R167). -/
def busRead8 (addr : Word) (s : State) : Byte :=
  match route s.cfg (busMask addr) with
  | none => 0x00
  | some r => laneRead r (offsetIn s.cfg r (busMask addr)) s

/-- `READ16 addr` (R168, R176). -/
def busRead16 (addr : Word) (s : State) : Except Refusal Half :=
  match route s.cfg (busMask addr) with
  | none => .ok 0x0000
  | some r =>
    if busMask addr % 2 = 1 then .error .misaligned
    else .ok (regionRead16 r (offsetIn s.cfg r (busMask addr)) s)

/-- `READ32 addr` (R169): two 16-bit reads, high half first, each masked and routed on its own. -/
def busRead32 (addr : Word) (s : State) : Except Refusal Word :=
  match busRead16 addr s with
  | .error e => .error e
  | .ok hi =>
    match busRead16 (secondHalf addr) s with
    | .error e => .error e
    | .ok lo => .ok (joinHalves hi lo)

/-- `FETCH16 addr` (R173): "default falls back to plain reads", and no device of the core differs. -/
def busFetch16 (addr : Word) (s : State) : Except Refusal Half := busRead16 addr s

/-- `FETCH32 addr` (R174). -/
def busFetch32 (addr : Word) (s : State) : Except Refusal Word := busRead32 addr s

/-- `WRITE8 addr, v` (R170). -/
def busWrite8 (addr : Word) (v : Byte) (s : State) : Except Refusal State :=
  match route s.cfg (busMask addr) with
  | none => .ok s
  | some r => regionWrite8 r (offsetIn s.cfg r (busMask addr)) v s

/-- `WRITE16 addr, v` (R171, R176). -/
def busWrite16 (addr : Word) (v : Half) (s : State) : Except Refusal State :=
  match route s.cfg (busMask addr) with
  | none => .ok s
  | some r =>
    if busMask addr % 2 = 1 then .error .misaligned
    else regionWrite16 r (offsetIn s.cfg r (busMask addr)) v s

/-- `WRITE32 addr, v` (R172): the first half's side effects are complete before the second half is stored. -/
def busWrite32 (addr : Word) (v : Word) (s : State) : Except Refusal State :=
  match busWrite16 addr (hiHalf v) s with
  | .error e => .error e
  | .ok s1 => busWrite16 (secondHalf addr) (loHalf v) s1

/-! ### Outcomes -/

/-- The outcome of an operation without a result. -/
def finish : Except Refusal State → Host.Outcome State Fault Refusal
  | .ok s => .next (s.setResult .none)
  | .error e => .refused e

/-- The outcome of an operation that only reads. -/
def answer (s : State) : Except Refusal Result → Host.Outcome State Fault Refusal
  | .ok r => .next (s.setResult r)
  | .error e => .refused e

/-! ### Region-direct access (R81 to R85, R88) -/

/-- `RGN.INRANGE r, addr` (R81). -/
def regionInrange (r : Region) (addr : Word) (s : State) : Host.Outcome State Fault Refusal :=
  .next (s.setResult (.bit (inRange s.cfg r addr.toNat)))

/-- `RGN.R8 r, addr` (R82, R88). -/
def regionR8 (r : Region) (addr : Word) (s : State) : Host.Outcome State Fault Refusal :=
  if inRange s.cfg r addr.toNat then .next (s.setResult (.byte (laneRead r (offsetIn s.cfg r addr.toNat) s)))
  else .refused .outOfRange

/-- `RGN.R16 r, addr` (R83, R43, R88). -/
def regionR16 (r : Region) (addr : Word) (s : State) : Host.Outcome State Fault Refusal :=
  if addr.toNat % 2 = 1 then .refused .misaligned
  else if inRange s.cfg r addr.toNat && inRange s.cfg r (addr.toNat + 1) then
    .next (s.setResult (.half (regionRead16 r (offsetIn s.cfg r addr.toNat) s)))
  else .refused .outOfRange

/-- `RGN.W8 r, addr, v` (R84, R88). -/
def regionW8 (r : Region) (addr : Word) (v : Byte) (s : State) : Host.Outcome State Fault Refusal :=
  if inRange s.cfg r addr.toNat then finish (regionWrite8 r (offsetIn s.cfg r addr.toNat) v s)
  else .refused .outOfRange

/-- `RGN.W16 r, addr, v` (R85, R43, R88). -/
def regionW16 (r : Region) (addr : Word) (v : Half) (s : State) : Host.Outcome State Fault Refusal :=
  if addr.toNat % 2 = 1 then .refused .misaligned
  else if inRange s.cfg r addr.toNat && inRange s.cfg r (addr.toNat + 1) then
    finish (regionWrite16 r (offsetIn s.cfg r addr.toNat) v s)
  else .refused .outOfRange

/-! ### Named registers (R64, R70) -/

/-- An access to a named register is the bus operation of its width at the register's address (R70). -/
def accessRegister (n : RegName) (acc : RegAccess) (s : State) : Host.Outcome State Fault Refusal :=
  match acc with
  | .read8 lo => .next (s.setResult (.byte (busRead8 (laneAddress s.cfg n lo) s)))
  | .write8 lo v => finish (busWrite8 (laneAddress s.cfg n lo) v s)
  | .read16 => answer s ((busRead16 (namedAddress s.cfg n) s).map .half)
  | .write16 v => finish (busWrite16 (namedAddress s.cfg n) v s)

end Sys2Proof.Machine
end

