-- ==== Sys2Proof/Machine/Bus.lean ====
section
/-! DEFINITION. Machine/Bus.lean: the bus operations (`45_dispatch.md`). -/

namespace Sys2Proof.Machine

/-- `READ8 addr -> v` (R167). -/
def execRead8 (addr : Word) (s : State) : Host.Outcome State Fault Refusal :=
  answer s (.ok (.byte (busRead8 addr s)))

/-- `READ16 addr -> v` (R168). -/
def execRead16 (addr : Word) (s : State) : Host.Outcome State Fault Refusal :=
  answer s ((busRead16 addr s).map .half)

/-- `READ32 addr -> v` (R169). -/
def execRead32 (addr : Word) (s : State) : Host.Outcome State Fault Refusal :=
  answer s ((busRead32 addr s).map .word)

/-- `WRITE8 addr, v` (R170). -/
def execWrite8 (addr : Word) (v : Byte) (s : State) : Host.Outcome State Fault Refusal :=
  finish (busWrite8 addr v s)

/-- `WRITE16 addr, v` (R171). -/
def execWrite16 (addr : Word) (v : Half) (s : State) : Host.Outcome State Fault Refusal :=
  finish (busWrite16 addr v s)

/-- `WRITE32 addr, v` (R172). -/
def execWrite32 (addr : Word) (v : Word) (s : State) : Host.Outcome State Fault Refusal :=
  finish (busWrite32 addr v s)

/-- `FETCH16 addr -> v` (R173). -/
def execFetch16 (addr : Word) (s : State) : Host.Outcome State Fault Refusal :=
  answer s ((busFetch16 addr s).map .half)

/-- `FETCH32 addr -> v` (R174). -/
def execFetch32 (addr : Word) (s : State) : Host.Outcome State Fault Refusal :=
  answer s ((busFetch32 addr s).map .word)

end Sys2Proof.Machine
end

