-- ==== Sys2Proof/Machine/InterruptOps.lean ====
section
/-! DEFINITION. Machine/InterruptOps.lean: the interrupt operations (`44_interrupt_arbiter.md`). -/

namespace Sys2Proof.Machine

/-- `INJECT vec, lvl` (R150): no duplicate check (R157). -/
def execInject (vec : Byte) (lvl : Level) (s : State) : Host.Outcome State Fault Refusal :=
  finish (injectVector vec lvl s)

/-- `HASPEND vec, lvl -> b` (R151). -/
def execHaspend (vec : Byte) (lvl : Level) (s : State) : Host.Outcome State Fault Refusal :=
  answer s (.ok (.bit (hasPending vec lvl s)))

/-- `ACK lvl -> vec` (R152, R158). -/
def execAck (lvl : Level) (s : State) : Host.Outcome State Fault Refusal :=
  match ackLevel lvl s with
  | .error e => .refused e
  | .ok (vec, t) => .next (t.setResult (.word vec))

end Sys2Proof.Machine
end

