-- ==== Sys2Proof/Machine/PortOps.lean ====
section
/-! DEFINITION. Machine/PortOps.lean: the port operations (`41_gpio_port.md`). -/

namespace Sys2Proof.Machine

/-- `P.SETDIR p, m` (R90). -/
def execPSetdir (p : Port) (m : Byte) (s : State) : Host.Outcome State Fault Refusal :=
  finish (portSetDir p m s)

/-- `P.WRITETX p, b` (R91). -/
def execPWritetx (p : Port) (b : Byte) (s : State) : Host.Outcome State Fault Refusal :=
  finish (portWriteTx p b s)

/-- `P.WRITERX p, b` (R92). -/
def execPWriterx (p : Port) (b : Byte) (s : State) : Host.Outcome State Fault Refusal :=
  finish (.ok (portWriteRx p b s))

/-- `P.READ p -> b` (R93). -/
def execPRead (p : Port) (s : State) : Host.Outcome State Fault Refusal :=
  answer s (.ok (.byte (portRead p s)))

/-- `P.ENABLE p, m` (R94). -/
def execPEnable (p : Port) (m : Byte) (s : State) : Host.Outcome State Fault Refusal :=
  finish (.ok (portEnable p m s))

end Sys2Proof.Machine
end

