-- ==== Sys2Proof/Machine/RegionOps.lean ====
section
/-! DEFINITION. Machine/RegionOps.lean: the region-direct operations (`40_mmio_region.md`), one per region. -/

namespace Sys2Proof.Machine

/-- `RGN.INRANGE T, addr -> b` (R81). -/
def execRgnInrangeT (addr : Word) (s : State) : Host.Outcome State Fault Refusal :=
  regionInrange .timer addr s

/-- `RGN.INRANGE S, addr -> b` (R81). -/
def execRgnInrangeS (addr : Word) (s : State) : Host.Outcome State Fault Refusal :=
  regionInrange .sys addr s

/-- `RGN.INRANGE Q, addr -> b` (R81). -/
def execRgnInrangeQ (addr : Word) (s : State) : Host.Outcome State Fault Refusal :=
  regionInrange .serial addr s

/-- `RGN.R8 T, addr -> v` (R82). -/
def execRgnR8T (addr : Word) (s : State) : Host.Outcome State Fault Refusal :=
  regionR8 .timer addr s

/-- `RGN.R8 S, addr -> v` (R82). -/
def execRgnR8S (addr : Word) (s : State) : Host.Outcome State Fault Refusal :=
  regionR8 .sys addr s

/-- `RGN.R8 Q, addr -> v` (R82). -/
def execRgnR8Q (addr : Word) (s : State) : Host.Outcome State Fault Refusal :=
  regionR8 .serial addr s

/-- `RGN.R16 T, addr -> v` (R83). -/
def execRgnR16T (addr : Word) (s : State) : Host.Outcome State Fault Refusal :=
  regionR16 .timer addr s

/-- `RGN.R16 S, addr -> v` (R83). -/
def execRgnR16S (addr : Word) (s : State) : Host.Outcome State Fault Refusal :=
  regionR16 .sys addr s

/-- `RGN.R16 Q, addr -> v` (R83). -/
def execRgnR16Q (addr : Word) (s : State) : Host.Outcome State Fault Refusal :=
  regionR16 .serial addr s

/-- `RGN.W8 T, addr, v` (R84). -/
def execRgnW8T (addr : Word) (v : Byte) (s : State) : Host.Outcome State Fault Refusal :=
  regionW8 .timer addr v s

/-- `RGN.W8 S, addr, v` (R84). -/
def execRgnW8S (addr : Word) (v : Byte) (s : State) : Host.Outcome State Fault Refusal :=
  regionW8 .sys addr v s

/-- `RGN.W8 Q, addr, v` (R84). -/
def execRgnW8Q (addr : Word) (v : Byte) (s : State) : Host.Outcome State Fault Refusal :=
  regionW8 .serial addr v s

/-- `RGN.W16 T, addr, v` (R85). -/
def execRgnW16T (addr : Word) (v : Half) (s : State) : Host.Outcome State Fault Refusal :=
  regionW16 .timer addr v s

/-- `RGN.W16 S, addr, v` (R85). -/
def execRgnW16S (addr : Word) (v : Half) (s : State) : Host.Outcome State Fault Refusal :=
  regionW16 .sys addr v s

/-- `RGN.W16 Q, addr, v` (R85). -/
def execRgnW16Q (addr : Word) (v : Half) (s : State) : Host.Outcome State Fault Refusal :=
  regionW16 .serial addr v s

end Sys2Proof.Machine
end

