-- ==== Sys2Proof/Machine/RegisterOps.lean ====
section
/-! DEFINITION. Machine/RegisterOps.lean: the register-decode rows (`30_encoding.md` R64): accesses to the registers of `10_state.md` R22 and R23 by name. -/

namespace Sys2Proof.Machine

/-- An access to the register `DDRGP` (R98, R100; R64, R70). -/
def execDdrgp (acc : RegAccess) (s : State) : Host.Outcome State Fault Refusal :=
  accessRegister .ddrgp acc s

/-- An access to the register `PORTGP` (R96, R97, R100; R64, R70). -/
def execPortgp (acc : RegAccess) (s : State) : Host.Outcome State Fault Refusal :=
  accessRegister .portgp acc s

/-- An access to the register `Tcnt` (R110, R111; R64, R70). -/
def execTcnt (acc : RegAccess) (s : State) : Host.Outcome State Fault Refusal :=
  accessRegister .tcnt acc s

/-- An access to the register `TOC1` (R113, R115; R64, R70). -/
def execToc1 (acc : RegAccess) (s : State) : Host.Outcome State Fault Refusal :=
  accessRegister .toc1 acc s

/-- An access to the register `TOC2` (R113, R115; R64, R70). -/
def execToc2 (acc : RegAccess) (s : State) : Host.Outcome State Fault Refusal :=
  accessRegister .toc2 acc s

/-- An access to the register `TOC3` (R113, R115; R64, R70). -/
def execToc3 (acc : RegAccess) (s : State) : Host.Outcome State Fault Refusal :=
  accessRegister .toc3 acc s

/-- An access to the register `TOC4` (R113, R115; R64, R70). -/
def execToc4 (acc : RegAccess) (s : State) : Host.Outcome State Fault Refusal :=
  accessRegister .toc4 acc s

/-- An access to the register `TMSK` (R117; R64, R70). -/
def execTmsk (acc : RegAccess) (s : State) : Host.Outcome State Fault Refusal :=
  accessRegister .tmsk acc s

/-- An access to the register `TFLG` (R112, R116; R64, R70). -/
def execTflg (acc : RegAccess) (s : State) : Host.Outcome State Fault Refusal :=
  accessRegister .tflg acc s

/-- An access to the register `SYNCR` (R130, R132; R64, R70). -/
def execSyncr (acc : RegAccess) (s : State) : Host.Outcome State Fault Refusal :=
  accessRegister .syncr acc s

/-- An access to the register `PORTE` at its first address (R96, R97; R64, R70). -/
def execPorte0 (acc : RegAccess) (s : State) : Host.Outcome State Fault Refusal :=
  accessRegister .porte0 acc s

/-- An access to the register `PORTE` at its second address (R96, R97; R64, R70). -/
def execPorte1 (acc : RegAccess) (s : State) : Host.Outcome State Fault Refusal :=
  accessRegister .porte1 acc s

/-- An access to the register `DDRE` (R98; R64, R70). -/
def execDdre (acc : RegAccess) (s : State) : Host.Outcome State Fault Refusal :=
  accessRegister .ddre acc s

/-- An access to the register `PEPAR` (R99; R64, R70). -/
def execPepar (acc : RegAccess) (s : State) : Host.Outcome State Fault Refusal :=
  accessRegister .pepar acc s

/-- An access to the register `PORTF` at its first address (R96, R97; R64, R70). -/
def execPortf0 (acc : RegAccess) (s : State) : Host.Outcome State Fault Refusal :=
  accessRegister .portf0 acc s

/-- An access to the register `PORTF` at its second address (R96, R97; R64, R70). -/
def execPortf1 (acc : RegAccess) (s : State) : Host.Outcome State Fault Refusal :=
  accessRegister .portf1 acc s

/-- An access to the register `DDRF` (R98; R64, R70). -/
def execDdrf (acc : RegAccess) (s : State) : Host.Outcome State Fault Refusal :=
  accessRegister .ddrf acc s

/-- An access to the register `PFPAR` (R99; R64, R70). -/
def execPfpar (acc : RegAccess) (s : State) : Host.Outcome State Fault Refusal :=
  accessRegister .pfpar acc s

/-- An access to the register `PICR` (R133, R134; R64, R70). -/
def execPicr (acc : RegAccess) (s : State) : Host.Outcome State Fault Refusal :=
  accessRegister .picr acc s

/-- An access to the register `PITR` (R133, R134; R64, R70). -/
def execPitr (acc : RegAccess) (s : State) : Host.Outcome State Fault Refusal :=
  accessRegister .pitr acc s

end Sys2Proof.Machine
end

