-- ==== Sys2Proof/Machine/SystemOps.lean ====
section
/-! DEFINITION. Machine/SystemOps.lean: the step driver, the exec steps, reset and the hooks (`46_integration.md`). -/

namespace Sys2Proof.Machine

/-! ### The exec steps -/

/-- `EXEC delta` (R181): timer, clock/system, serial, in that order; the serial module's exec step changes nothing
(R194). -/
def execAll (delta : Nat) (s : State) : Except Refusal State :=
  if delta ≥ 2 ^ 31 then .error .i32Range
  else
    match timerExec delta s with
    | .error e => .error e
    | .ok s1 => clockExec delta s1

/-- `T.EXEC delta` (R119). -/
def execTExec (delta : Word) (s : State) : Host.Outcome State Fault Refusal :=
  finish (timerExec delta.toNat s)

/-- `S.EXEC delta` (R135). -/
def execSExec (delta : Word) (s : State) : Host.Outcome State Fault Refusal :=
  finish (clockExec delta.toNat s)

/-- `Q.EXEC delta` (R194): "Its exec step changes nothing and raises nothing". -/
def execQExec (_delta : Word) (s : State) : Host.Outcome State Fault Refusal :=
  finish (.ok s)

/-- `EXEC delta` (R181). -/
def execSysExec (delta : Word) (s : State) : Host.Outcome State Fault Refusal :=
  finish (execAll delta.toNat s)

/-! ### Reset and the hooks -/

/-- `RESET` (R182, R221): every field of R36 takes its reset value. The configuration, the read hooks and the
environment's part of the run are not state of the core (R33) and stay. -/
def execSysReset (s : State) : Host.Outcome State Fault Refusal :=
  finish (.ok
    { State.boot s.cfg with
      hookGp := s.hookGp, hookE := s.hookE, hookF := s.hookF, hookQs := s.hookQs,
      requests := s.requests, engine := s.engine, reactions := s.reactions,
      engineResults := s.engineResults, freeCount := s.freeCount })

/-- `ILLEGAL op -> action` (R183): the caller's policy answers; no state changes. -/
def execIllegal (opcode : Half) (s : State) : Host.Outcome State Fault Refusal :=
  answer s (.ok (.action (Config.illegalPolicy opcode)))

/-- `RESETHOOK` (R184): by itself it changes no state of the core. -/
def execResethook (s : State) : Host.Outcome State Fault Refusal :=
  answer s (.ok .none)

/-- `RESETPC -> a` (R185). -/
def execResetpc (s : State) : Host.Outcome State Fault Refusal :=
  answer s (.ok (.word s.cfg.resetPc))

/-- `RESETSP -> a` (R186). -/
def execResetsp (s : State) : Host.Outcome State Fault Refusal :=
  answer s (.ok (.word s.cfg.resetSp))

/-! ### The step -/

/-- A nested operation of the engine has the meaning of the operation it is (R180). -/
def engineOutcome (op : EngineOp) (s : State) : Host.Outcome State Fault Refusal :=
  match op with
  | .read8 a => execRead8 a s
  | .read16 a => execRead16 a s
  | .read32 a => execRead32 a s
  | .write8 a v => execWrite8 a v s
  | .write16 a v => execWrite16 a v s
  | .write32 a v => execWrite32 a v s
  | .fetch16 a => execFetch16 a s
  | .fetch32 a => execFetch32 a s
  | .ack l => execAck l s
  | .illegal op => execIllegal op s
  | .resethook => execResethook s
  | .resetpc => execResetpc s
  | .resetsp => execResetsp s

/-- One nested operation: its result goes to the engine. -/
def engineStep (op : EngineOp) (s : State) : Host.Outcome State Fault Refusal :=
  match engineOutcome op s with
  | .next t => .next { t with result := .none, engineResults := t.engineResults ++ [t.result] }
  | .fault f => .fault f
  | .refused r => .refused r

/-- The operations the engine issues during one instruction, each performed at once on the current state (R180). -/
def engineSteps : List EngineOp → State → Host.Outcome State Fault Refusal
  | [], s => .next s
  | op :: ops, s =>
    match engineStep op s with
    | .next t => engineSteps ops t
    | .fault f => .fault f
    | .refused r => .refused r

/-- What the engine does at this `runOneInstruction()` (R187): the answer the state holds, else a free one. -/
def engineAnswer (s : State) : EngineRun :=
  match s.engine with
  | run :: _ => run
  | [] => Config.engineRun s.freeCount

/-- The state once that answer is drawn, the engine's last results discarded. -/
def drawEngine (s : State) : State :=
  match s.engine with
  | _ :: later => { s with engine := later, engineResults := [], result := .none }
  | [] => { s with freeCount := s.freeCount + 1, engineResults := [], result := .none }

/-- `cycles <- cycles + n` (R180). The counter is 64 bits and "cannot wrap in any run a model can state" (D24): past its
end the spec gives no value, and a free one follows. -/
def advanceCycles (n : Nat) (s : State) : State :=
  if s.cycles.toNat + n < 2 ^ 64 then { s with cycles := s.cycles + BitVec.ofNat 64 n }
  else { s with cycles := Config.cyclesPastEnd s.freeCount, freeCount := s.freeCount + 1 }

/-- The end of `STEP`, after the engine has answered `n`: `cycles` advances before the peripherals run (R180). -/
def retire (n : Nat) (s : State) : Host.Outcome State Fault Refusal :=
  finish (execAll n (advanceCycles n s))

/-- `STEP` (R180). -/
def execSysStep (s : State) : Host.Outcome State Fault Refusal :=
  match engineSteps (engineAnswer s).ops (drawEngine s) with
  | .next t => retire (engineAnswer s).cycles t
  | .fault f => .fault f
  | .refused r => .refused r

end Sys2Proof.Machine
end

