-- ==== Sys2Proof/Machine/Dispatch.lean ====
section
/-! DEFINITION. Machine/Dispatch.lean: one arm per constructor of Instr, each a direct call of its meaning. -/

namespace Sys2Proof.Machine

def exec (i : Instr) (s : State) : Host.Outcome State Fault Refusal :=
  match i with
  | .read8 addr => Sys2Proof.Machine.execRead8 addr s
  | .read16 addr => Sys2Proof.Machine.execRead16 addr s
  | .read32 addr => Sys2Proof.Machine.execRead32 addr s
  | .write8 addr v => Sys2Proof.Machine.execWrite8 addr v s
  | .write16 addr v => Sys2Proof.Machine.execWrite16 addr v s
  | .write32 addr v => Sys2Proof.Machine.execWrite32 addr v s
  | .fetch16 addr => Sys2Proof.Machine.execFetch16 addr s
  | .fetch32 addr => Sys2Proof.Machine.execFetch32 addr s
  | .rgnInrangeT addr => Sys2Proof.Machine.execRgnInrangeT addr s
  | .rgnInrangeS addr => Sys2Proof.Machine.execRgnInrangeS addr s
  | .rgnInrangeQ addr => Sys2Proof.Machine.execRgnInrangeQ addr s
  | .rgnR8T addr => Sys2Proof.Machine.execRgnR8T addr s
  | .rgnR8S addr => Sys2Proof.Machine.execRgnR8S addr s
  | .rgnR8Q addr => Sys2Proof.Machine.execRgnR8Q addr s
  | .rgnR16T addr => Sys2Proof.Machine.execRgnR16T addr s
  | .rgnR16S addr => Sys2Proof.Machine.execRgnR16S addr s
  | .rgnR16Q addr => Sys2Proof.Machine.execRgnR16Q addr s
  | .rgnW8T addr v => Sys2Proof.Machine.execRgnW8T addr v s
  | .rgnW8S addr v => Sys2Proof.Machine.execRgnW8S addr v s
  | .rgnW8Q addr v => Sys2Proof.Machine.execRgnW8Q addr v s
  | .rgnW16T addr v => Sys2Proof.Machine.execRgnW16T addr v s
  | .rgnW16S addr v => Sys2Proof.Machine.execRgnW16S addr v s
  | .rgnW16Q addr v => Sys2Proof.Machine.execRgnW16Q addr v s
  | .pSetdir p m => Sys2Proof.Machine.execPSetdir p m s
  | .pWritetx p b => Sys2Proof.Machine.execPWritetx p b s
  | .pWriterx p b => Sys2Proof.Machine.execPWriterx p b s
  | .pRead p => Sys2Proof.Machine.execPRead p s
  | .pEnable p m => Sys2Proof.Machine.execPEnable p m s
  | .inject vec lvl => Sys2Proof.Machine.execInject vec lvl s
  | .haspend vec lvl => Sys2Proof.Machine.execHaspend vec lvl s
  | .ack lvl => Sys2Proof.Machine.execAck lvl s
  | .sysStep => Sys2Proof.Machine.execSysStep s
  | .sysExec delta => Sys2Proof.Machine.execSysExec delta s
  | .sysReset => Sys2Proof.Machine.execSysReset s
  | .illegal opcode => Sys2Proof.Machine.execIllegal opcode s
  | .resethook => Sys2Proof.Machine.execResethook s
  | .resetpc => Sys2Proof.Machine.execResetpc s
  | .resetsp => Sys2Proof.Machine.execResetsp s
  | .tExec delta => Sys2Proof.Machine.execTExec delta s
  | .sExec delta => Sys2Proof.Machine.execSExec delta s
  | .qExec delta => Sys2Proof.Machine.execQExec delta s
  | .ddrgp acc => Sys2Proof.Machine.execDdrgp acc s
  | .portgp acc => Sys2Proof.Machine.execPortgp acc s
  | .tcnt acc => Sys2Proof.Machine.execTcnt acc s
  | .toc1 acc => Sys2Proof.Machine.execToc1 acc s
  | .toc2 acc => Sys2Proof.Machine.execToc2 acc s
  | .toc3 acc => Sys2Proof.Machine.execToc3 acc s
  | .toc4 acc => Sys2Proof.Machine.execToc4 acc s
  | .tmsk acc => Sys2Proof.Machine.execTmsk acc s
  | .tflg acc => Sys2Proof.Machine.execTflg acc s
  | .syncr acc => Sys2Proof.Machine.execSyncr acc s
  | .porte0 acc => Sys2Proof.Machine.execPorte0 acc s
  | .porte1 acc => Sys2Proof.Machine.execPorte1 acc s
  | .ddre acc => Sys2Proof.Machine.execDdre acc s
  | .pepar acc => Sys2Proof.Machine.execPepar acc s
  | .portf0 acc => Sys2Proof.Machine.execPortf0 acc s
  | .portf1 acc => Sys2Proof.Machine.execPortf1 acc s
  | .ddrf acc => Sys2Proof.Machine.execDdrf acc s
  | .pfpar acc => Sys2Proof.Machine.execPfpar acc s
  | .picr acc => Sys2Proof.Machine.execPicr acc s
  | .pitr acc => Sys2Proof.Machine.execPitr acc s

end Sys2Proof.Machine
end

