-- ==== Sys2Proof/Machine/Fetch.lean ====
section
/-! DEFINITION. Machine/Fetch.lean: what the host does next (`46_integration.md` R193, R196), read from the state. -/

namespace Sys2Proof.Machine

/-- What one step of the machine is about. -/
inductive Fetched where
  /-- The host issues nothing (R196): nothing runs. -/
  | idle
  /-- An operation, and the state it runs in. -/
  | run (i : Instr) (s : State)
  /-- A word that is no operation (R66). -/
  | invalid (e : DecodeError)
  /-- An act of the host that is no operation, and the state after it. -/
  | acted (s : State)

/-- The host's next request, taken off the list. `setProgramCounter` and `pulseReset` touch nothing of the core (R189,
R190). -/
def fetch (s : State) : Fetched :=
  match s.requests with
  | [] => .idle
  | .word w :: later =>
    match decode w with
    | .ok i => .run i { s with requests := later }
    | .error e => .invalid e
  | .replaceHook p h :: later => .acted ({ s with requests := later }.setHook p h)
  | .setProgramCounter _ :: later => .acted { s with requests := later }
  | .pulseReset :: later => .acted { s with requests := later }

/-- Puts an operation's word first among the host's requests. If the state holds no answer of the engine, an idle one of 0
cycles is supplied (`IDLE 0`, R71), so that a `STEP` word has an instruction of the engine to run (log entry 4). -/
def loadWord (w : OpWord) (s : State) : State :=
  { s with
    requests := .word w :: s.requests
    engine := match s.engine with
      | [] => [⟨[], 0⟩]
      | run :: later => run :: later }

end Sys2Proof.Machine
end

