-- ==== Sys2Proof/Machine/Step.lean ====
section
/-! DEFINITION. Machine/Step.lean: one step of the machine: the host's next request, performed. -/

namespace Sys2Proof.Machine

/-- One step. A configuration that violates a constraint of R4 is refused (U21); with no request the core is "simply
frozen" (R214); a word that is no operation is refused (R66). -/
def step (s : State) : Host.Outcome State Fault Refusal :=
  if s.cfg.WF then
    match fetch s with
    | .idle => .next s
    | .run i s1 => exec i s1
    | .invalid _ => .refused .illegalOperation
    | .acted s1 => .next s1
  else .refused .badConfig

/-- `s` with an instruction of the opcode table where `step` takes its next one: the host's next request. -/
def State.withFetchWord (s : State) (nbits w : Nat) : State := loadWord (tableWord nbits w) s

end Sys2Proof.Machine
end

