-- ==== Sys2Proof/Safety.lean ====
section
/-! DEFINITION. Safety.lean: what a good state is, and the terms in which claims say what an operation leaves unchanged. -/

namespace Sys2Proof.Machine

/-! ### What stays the same -/

/-- Every byte of every storage reads as before. -/
def SameStorage (s t : State) : Prop := ∀ (r : Region) (o : Nat), t.byteAt r o = s.byteAt r o

/-- Every byte of every storage reads as before, but for the bytes at offsets `lo` and up, below `lo + n`, of region `r`. -/
def SameStorageBut (r : Region) (lo n : Nat) (s t : State) : Prop :=
  ∀ (r1 : Region) (o : Nat), ¬ (r1 = r ∧ lo ≤ o ∧ o < lo + n) → t.byteAt r1 o = s.byteAt r1 o

/-- Every port has the state it had. -/
def SamePorts (s t : State) : Prop := ∀ p : Port, t.port p = s.port p

/-- Every port but `p` has the state it had. -/
def SamePortsBut (p : Port) (s t : State) : Prop := ∀ q : Port, q ≠ p → t.port q = s.port q

/-- The accumulators, the cycle counter and the legacy variant's last counter value are as before. -/
def SameTimers (s t : State) : Prop :=
  (∀ k : Channel, t.acc[k] = s.acc[k]) ∧ t.cycles = s.cycles ∧ t.prevTcnt = s.prevTcnt

/-- The system clock and the periodic timer are as before. -/
def SameClock (s t : State) : Prop := t.sysclk = s.sysclk ∧ t.pitLoad = s.pitLoad ∧ t.pitCur = s.pitCur

/-- Nothing became pending or was taken, and the request level is as before. -/
def SameQueues (s t : State) : Prop := (∀ l : Level, t.queue[l] = s.queue[l]) ∧ t.irq = s.irq

/-- The configuration, the read hooks, and what the environment still has to do are as before. -/
def SameEnvironment (s t : State) : Prop :=
  t.cfg = s.cfg ∧ (∀ p : Port, t.hook p = s.hook p) ∧ t.requests = s.requests ∧ t.engine = s.engine ∧
    t.engineResults = s.engineResults ∧ t.reactions = s.reactions

/-! ### Listeners -/

/-- No listener reacts to the events to come. -/
def State.quiet (s : State) : Prop := s.reactions = []

/-- A reaction R54 allows: an external-side operation. -/
def Reaction.external : Reaction → Bool
  | .writeRx _ _ => true
  | .inject _ _ => true
  | .replaceHook _ _ => true
  | .step => false
  | .exec _ => false
  | .reset => false

/-- No listener will issue `STEP`, `EXEC` or `RESET` from inside an event (R235). -/
def State.orderly (s : State) : Prop := ∀ rs ∈ s.reactions, ∀ r ∈ rs, r.external = true

/-- `t` is reached from `s` by events and the reactions to them (R54): everything those can change is input pins, read
hooks, what is pending, the request level, the trace, and the reactions still to come. -/
structure Reacted (s t : State) : Prop where
  stor : ∀ r : Region, t.stor r = s.stor r
  cfg : t.cfg = s.cfg
  acc : t.acc = s.acc
  cycles : t.cycles = s.cycles
  sysclk : t.sysclk = s.sysclk
  pitLoad : t.pitLoad = s.pitLoad
  pitCur : t.pitCur = s.pitCur
  prevTcnt : t.prevTcnt = s.prevTcnt
  result : t.result = s.result
  engineResults : t.engineResults = s.engineResults
  requests : t.requests = s.requests
  engine : t.engine = s.engine
  freeCount : t.freeCount = s.freeCount
  direction : ∀ p : Port, (t.port p).direction = (s.port p).direction
  enabledPins : ∀ p : Port, (t.port p).enabledPins = (s.port p).enabledPins
  writeCounter : ∀ p : Port, (t.port p).writeCounter = (s.port p).writeCounter
  data : ∀ p : Port, (t.port p).data &&& ~~~(~~~(s.port p).direction &&& (s.port p).enabledPins) =
    (s.port p).data &&& ~~~(~~~(s.port p).direction &&& (s.port p).enabledPins)
  queue : ∀ l : Level, s.queue[l] <+: t.queue[l]
  out : s.out <+: t.out
  reactions : t.reactions <:+ s.reactions
  irq : (t.queue = s.queue ∧ t.irq = s.irq) ∨ t.irq = highest t.queue

/-! ### Good states -/

/-- The invariant of the machine: the configuration meets R4; the storages are canonical; the request level is the highest
non-empty one (R155); accumulators and periodic timer are `i32` (R8 (d)); the clock and the load value agree with the
registers they are derived from (R132, R133, R134), and the count never exceeds the load value (R137). -/
structure State.Inv (s : State) : Prop where
  config : s.cfg.WF
  storage : ∀ r : Region, Memory.wf (imageByte s.cfg r) (regionSize r) (s.stor r)
  request : s.irq = highest s.queue
  accumulators : ∀ k : Channel, i32Min ≤ s.acc[k] ∧ s.acc[k] ≤ i32Max
  clock : s.sysclk = clockOf s.cfg (s.reg16 .sys s.cfg.sSyncr)
  load : s.pitLoad = pitLoadNow s
  loadRange : s.pitLoad ≤ i32Max
  count : i32Min ≤ s.pitCur ∧ s.pitCur ≤ s.pitLoad

/-- No register value makes the periodic timer's load value leave `i32` (R133; true of the default field widths). -/
def LoadsFit (c : Cfg) : Prop :=
  ∀ picr pitr syncr : Half, pitLoadOf c picr pitr (clockOf c syncr) ≤ i32Max

/-- The window of region `r` holds the address `a` (R81, R166). -/
def Claims (c : Cfg) (r : Region) (a : Nat) : Prop := regionBase c r ≤ a ∧ a < regionBase c r + regionSize r

/-! ### Operations in sequence -/

/-- One operation after another: the second runs in the state the first leaves, and a stop ends the sequence. -/
def andThen (o : Host.Outcome State Fault Refusal) (f : State → Host.Outcome State Fault Refusal) :
    Host.Outcome State Fault Refusal :=
  match o with
  | .next t => f t
  | .fault e => .fault e
  | .refused e => .refused e

/-- A list of operations, in order. -/
def execList : List Instr → State → Host.Outcome State Fault Refusal
  | [], s => .next s
  | i :: is, s => andThen (exec i s) (execList is)

/-- The operations an engine issues inside a step, in order, each with its result handed to the engine (R180). -/
def execNested : List EngineOp → State → Host.Outcome State Fault Refusal
  | [], s => .next s
  | op :: ops, s =>
    andThen (exec op.toInstr s) fun t =>
      execNested ops { t with result := .none, engineResults := t.engineResults ++ [t.result] }

/-! ### Operations by region and by register -/

def inrangeOf : Region → Word → Instr
  | .timer => .rgnInrangeT
  | .sys => .rgnInrangeS
  | .serial => .rgnInrangeQ

def r8Of : Region → Word → Instr
  | .timer => .rgnR8T
  | .sys => .rgnR8S
  | .serial => .rgnR8Q

def r16Of : Region → Word → Instr
  | .timer => .rgnR16T
  | .sys => .rgnR16S
  | .serial => .rgnR16Q

def w8Of : Region → Word → Byte → Instr
  | .timer => .rgnW8T
  | .sys => .rgnW8S
  | .serial => .rgnW8Q

def w16Of : Region → Word → Half → Instr
  | .timer => .rgnW16T
  | .sys => .rgnW16S
  | .serial => .rgnW16Q

/-- The port whose direction register a name is (R98, R100). -/
def directionPort : RegName → Option Port
  | .ddrgp => some .gp
  | .ddre => some .e
  | .ddrf => some .f
  | .portgp | .tcnt | .toc1 | .toc2 | .toc3 | .toc4 | .tmsk | .tflg | .syncr | .porte0 | .porte1 | .pepar | .portf0
  | .portf1 | .pfpar | .picr | .pitr => none

/-- The port whose data register a name is, at one of its addresses (R96). -/
def dataPort : RegName → Option Port
  | .portgp => some .gp
  | .porte0 => some .e
  | .porte1 => some .e
  | .portf0 => some .f
  | .portf1 => some .f
  | .ddrgp | .tcnt | .toc1 | .toc2 | .toc3 | .toc4 | .tmsk | .tflg | .syncr | .ddre | .pepar | .ddrf | .pfpar | .picr
  | .pitr => none

/-- The port whose pin-assignment register a name is (R99). -/
def assignPort : RegName → Option Port
  | .pepar => some .e
  | .pfpar => some .f
  | .ddrgp | .portgp | .tcnt | .toc1 | .toc2 | .toc3 | .toc4 | .tmsk | .tflg | .syncr | .porte0 | .porte1 | .ddre
  | .portf0 | .portf1 | .ddrf | .picr | .pitr => none

/-- The channel whose target register a name is (R113). -/
def targetChannel : RegName → Option Channel
  | .toc1 => some 0
  | .toc2 => some 1
  | .toc3 => some 2
  | .toc4 => some 3
  | .ddrgp | .portgp | .tcnt | .tmsk | .tflg | .syncr | .porte0 | .porte1 | .ddre | .pepar | .portf0 | .portf1 | .ddrf
  | .pfpar | .picr | .pitr => none

/-- What a run must not do: a word the decoder rejects, or an access outside the documented domain. The machine refuses it,
so a safe run is one whose every step answers a next state. -/
def Completes (o : Host.Outcome State Fault Refusal) : Prop := ∃ t, o = .next t

end Sys2Proof.Machine
end

