-- ==== Sys2Proof/Certificates/Slice0/Obligations.lean ====
section
/-! DEFINITION. Certificates/Slice0/Obligations.lean: the statements for the provers, in the order of the files of spec/. -/

section

open Sys2Proof Sys2Proof.Machine

/-! ### Encoding (`30_encoding.md`) -/

/-- The transaction word with selector `opc` and operand words `a` and `d` is the instruction's (R60, R61). -/
def HasWord (opc : BitVec 8) (a d : Word) (i : Instr) : Prop := decode (.tw (opc ++ a ++ d)) = .ok i

/-- The region's number in the selector (R61). -/
def regionNumber : Region → BitVec 8
  | .timer => 0
  | .sys => 1
  | .serial => 2

/-- Decode and encode agree: every well-formed instruction, with every operand, is read back from its word (R60 to R64). -/
def Obligations.DecodeInvertsEncode : Prop :=
  ∀ i : Instr, i.wf = true → decode (encode i) = .ok i

/-- R67: a transaction word the decoder accepts is the one word of its operation, so its unused bits are zero and decoding
is injective. -/
def Obligations.TransactionWordIsTheOnlyOne : Prop :=
  ∀ (w : BitVec 72) (i : Instr), decode (.tw w) = .ok i →
    i.wf = true ∧ encode i = .tw w ∧ ∀ w2 : BitVec 72, decode (.tw w2) = .ok i → w2 = w

/-- R66: a selector that R61 does not list (the region operations with `r = 3` among them) is illegal, whatever the
operands, and a machine given such a word refuses it. -/
def Obligations.UnlistedSelectorsAreIllegal : Prop :=
  ∀ (opc : BitVec 8) (a d : Word),
    opc.toNat ∉ ([0x01, 0x02, 0x04, 0x11, 0x12, 0x14, 0x22, 0x24, 0x28, 0x29, 0x2A, 0x30, 0x31, 0x32, 0x34, 0x35, 0x36,
      0x38, 0x39, 0x3A, 0x3C, 0x3D, 0x3E, 0x50, 0x51, 0x52, 0x53, 0x54, 0x60, 0x61, 0x62, 0x70, 0x71, 0x72, 0x73, 0x74,
      0x75, 0x76, 0x78, 0x79, 0x7A] : List Nat) →
    decode (.tw (opc ++ a ++ d)) = .error .illegalSelector ∧
      ∀ (s : State) (later : List Request), s.cfg.WF → s.requests = .word (.tw (opc ++ a ++ d)) :: later →
        step s = .refused .illegalOperation

/-- A few words are read as the operations they stand for: six transaction words, written out from R60 and R61, and one
register-access word, whose form is the model's own (DESIGN CHOICE: log entry 3). -/
def Obligations.SpecWordsDecode : Prop :=
  decode (.tw 0x12000FF91400000100#72) = .ok (.write16 0xFF914 0x0100) ∧
    decode (.tw 0x2A000FFC0000000000#72) = .ok (.rgnInrangeQ 0xFFC00) ∧
    decode (.tw 0x510000000100000081#72) = .ok (.pWritetx .e 0x81) ∧
    decode (.tw 0x600000000600000040#72) = .ok (.inject 0x40 6) ∧
    decode (.tw 0x710000000000000005#72) = .ok (.sysExec 5) ∧
    decode (.tw 0x730000000000004AFC#72) = .ok (.illegal 0x4AFC) ∧
    decode (.reg 0x000002000FF90A#56) = .ok (.tcnt .read16)

/-- R64 on the default map: the low 20 bits of a register-access word's address select the register, bits 31:20 nothing;
an address of no register selects none. (The kind and data fields of the word are the model's: log entry 3.) -/
def Obligations.RegisterWordsSelectTheirRegister : Prop :=
  (∀ n : RegName, registerAddress n =
      regionBase Cfg.default (namedAt Cfg.default n).1 + (namedAt Cfg.default n).2) ∧
    (∀ (n : RegName) (lo : Bool) (addr : Word), (n.instr (.read8 lo)).wf = true →
      addr.toNat % 2 ^ 20 = registerAddress n + lo.toNat →
      decode (.reg (packReg addr 0 0)) = .ok (n.instr (.read8 lo)) ∧
        (∀ v : Byte, decode (.reg (packReg addr 1 (v.setWidth 16))) = .ok (n.instr (.write8 lo v))) ∧
        ((n.instr .read16).wf = true → lo = false →
          decode (.reg (packReg addr 2 0)) = .ok (n.instr .read16) ∧
            ∀ v : Half, decode (.reg (packReg addr 3 v)) = .ok (n.instr (.write16 v)))) ∧
    (∀ (addr : Word) (kind : BitVec 8) (data : Half),
      (∀ (n : RegName) (lo : Bool), (n.instr (.read8 lo)).wf = true →
        addr.toNat % 2 ^ 20 ≠ registerAddress n + lo.toNat) →
      decode (.reg (packReg addr kind data)) = .error .noRegister)

/-- R64 under every configuration that meets R4: which offsets each register covers, and that an offset
which none of a region's registers covers selects no register at all. -/
def Obligations.OffsetsSelectTheirRegister : Prop :=
  ∀ c : Cfg, c.WF → ∀ o : Nat,
    (regAt c .timer o = some (.dir .gp) ↔ o = c.tDdrgp) ∧
    (regAt c .timer o = some (.data .gp) ↔ o = c.tPortgp) ∧
    (regAt c .timer o = some .tcnt ↔ o = c.tTcnt ∨ o = c.tTcnt + 1) ∧
    (∀ k : Channel, regAt c .timer o = some (.toc k) ↔ o = c.tToc[k] ∨ o = c.tToc[k] + 1) ∧
    (regAt c .timer o = some .tmsk ↔ o = c.tTmsk ∨ o = c.tTmsk + 1) ∧
    (regAt c .timer o = some .tflg ↔ o = c.tTflg ∨ o = c.tTflg + 1) ∧
    (regAt c .sys o = some .syncr ↔ o = c.sSyncr ∨ o = c.sSyncr + 1) ∧
    (regAt c .sys o = some (.data .e) ↔ o ∈ c.sPorteData) ∧
    (regAt c .sys o = some (.dir .e) ↔ o = c.sDdre) ∧
    (regAt c .sys o = some (.assign .e) ↔ o = c.sPepar) ∧
    (regAt c .sys o = some (.data .f) ↔ o ∈ c.sPortfData) ∧
    (regAt c .sys o = some (.dir .f) ↔ o = c.sDdrf) ∧
    (regAt c .sys o = some (.assign .f) ↔ o = c.sPfpar) ∧
    (regAt c .sys o = some .picr ↔ o = c.sPicr ∨ o = c.sPicr + 1) ∧
    (regAt c .sys o = some .pitr ↔ o = c.sPitr ∨ o = c.sPitr + 1) ∧
    (o ≠ c.tDdrgp → o ≠ c.tPortgp → (o ≠ c.tTcnt ∧ o ≠ c.tTcnt + 1) →
      (∀ k : Channel, o ≠ c.tToc[k] ∧ o ≠ c.tToc[k] + 1) → (o ≠ c.tTmsk ∧ o ≠ c.tTmsk + 1) →
      (o ≠ c.tTflg ∧ o ≠ c.tTflg + 1) → regAt c .timer o = none) ∧
    ((o ≠ c.sSyncr ∧ o ≠ c.sSyncr + 1) → o ∉ c.sPorteData → o ≠ c.sDdre → o ≠ c.sPepar → o ∉ c.sPortfData →
      o ≠ c.sDdrf → o ≠ c.sPfpar → (o ≠ c.sPicr ∧ o ≠ c.sPicr + 1) → (o ≠ c.sPitr ∧ o ≠ c.sPitr + 1) →
      regAt c .sys o = none) ∧
    regAt c .serial o = none ∧
    (∀ g : Reg, regAt c .timer o = some g → o < 64) ∧ (∀ g : Reg, regAt c .sys o = some g → o < 128)

/-! ### The step (`46_integration.md` R193, R196) -/

/-- A step runs the decoded instruction: where the host's next request is the word of an instruction, `step` is `exec` of
that instruction, in the state with the request taken off the list. (That one step of the machine performs the host's next
request is the model's choice: log entry 4.) -/
def Obligations.StepRunsTheDecodedInstruction : Prop :=
  ∀ (s : State) (w : OpWord) (later : List Request) (i : Instr), s.cfg.WF → s.requests = .word w :: later →
    decode w = .ok i → step s = exec i { s with requests := later }

/-- What else a step does: nothing without a request (DEDUCED from R214 and R196: log entry 13); it replaces a read hook when the host asks for it (R102); the
two outbound calls no rule makes touch nothing (R189, R190); a word that is no operation is refused (R66), and so is a
configuration outside R4 (U21; that the step does it, and its name: DEDUCED, log entry 13). (The list of requests is the model's choice: log entry 4.) -/
def Obligations.StepWithoutAnOperation : Prop :=
  ∀ (s : State) (later : List Request),
    (s.cfg.WF → s.requests = [] → step s = .next s) ∧
    (s.cfg.WF → ∀ (p : Port) (h : Hook), s.requests = .replaceHook p h :: later →
      ∃ t, step s = .next t ∧ t.hook p = h ∧ (∀ q, q ≠ p → t.hook q = s.hook q) ∧
        t = { s with requests := later, hookGp := t.hookGp, hookE := t.hookE, hookF := t.hookF, hookQs := t.hookQs }) ∧
    (s.cfg.WF → ∀ a : Word, s.requests = .setProgramCounter a :: later → step s = .next { s with requests := later }) ∧
    (s.cfg.WF → s.requests = .pulseReset :: later → step s = .next { s with requests := later }) ∧
    (s.cfg.WF → ∀ (w : OpWord) (e : DecodeError), s.requests = .word w :: later → decode w = .error e →
      step s = .refused .illegalOperation) ∧
    (¬ s.cfg.WF → step s = .refused .badConfig)

/-- Every step of the machine keeps a good state good. -/
def Obligations.StepKeepsInv : Prop :=
  ∀ s t : State, s.Inv → step s = .next t → t.Inv

/-- The state after reset is good, on the default configuration and on every other that meets R4. -/
def Obligations.ResetStateIsGood : Prop :=
  State.reset.Inv ∧ ∀ c : Cfg, c.WF → (State.boot c).Inv

/-- R155: after `RESET` and after every operation the request level is the highest level, 7 down to 1, that has something
pending, or 0 when none has. -/
def Obligations.RequestLevelIsTheHighestPending : Prop :=
  (∀ c : Cfg, (State.boot c).irq = 0 ∧ ∀ l : Level, (State.boot c).queue[l] = []) ∧
    ∀ (i : Instr) (s t : State),
      ((∀ l : Level, s.irq < l → s.queue[l] = []) ∧ (s.irq ≠ 0 → s.queue[s.irq] ≠ [])) → exec i s = .next t →
      (∀ l : Level, t.irq < l → t.queue[l] = []) ∧ (t.irq ≠ 0 → t.queue[t.irq] ≠ [])

/-- R4, R243: the configuration is no state, and no operation changes it. -/
def Obligations.NoOperationChangesTheConfiguration : Prop :=
  ∀ (i : Instr) (s t : State), exec i s = .next t → t.cfg = s.cfg

/-- R160: a pending vector leaves its queue only by the acknowledge that pops it (issued by the host, or by the engine
inside a step), which also clears the request line, or by `RESET`: after any other operation, whatever it is and whatever the listeners do, every queue
begins with all that was pending, in the same order. -/
def Obligations.PendingVectorsLeaveOnlyByAcknowledge : Prop :=
  ∀ (i : Instr) (s t : State), exec i s = .next t →
    ((∀ lvl : Level, i ≠ .ack lvl) → i ≠ .sysReset →
      (i = .sysStep → ∀ op ∈ (engineAnswer s).ops, ∀ lvl : Level, op ≠ .ack lvl) →
      ∀ l : Level, s.queue[l] <+: t.queue[l]) ∧
    (∀ lvl : Level, i = .ack lvl → s.queue[lvl].tail <+: t.queue[lvl] ∧
      (∀ l : Level, l ≠ lvl → s.queue[l] <+: t.queue[l]) ∧ (s.queue[lvl] ≠ [] → s.out ++ [.irqLine 0] <+: t.out)) ∧
    (i = .sysReset → ∀ l : Level, t.queue[l] = [])

/-! ### Regions (`40_mmio_region.md`) -/

/-- R86: what a read sees at one byte: the halves of the counter at `Tcnt`, the hooked data at a port data register, the
storage byte everywhere else (registers with write side effects included). -/
def Obligations.LaneReadByRegister : Prop :=
  ∀ s : State, s.cfg.WF →
    laneRead .timer s.cfg.tTcnt s = BitVec.ofNat 8 (s.cycles.toNat / 4 / 256) ∧
    laneRead .timer (s.cfg.tTcnt + 1) s = BitVec.ofNat 8 (s.cycles.toNat / 4) ∧
    laneRead .timer s.cfg.tPortgp s = hookValue s.hookGp s.portGp.data ∧
    (∀ o ∈ s.cfg.sPorteData, laneRead .sys o s = hookValue s.hookE s.portE.data) ∧
    (∀ o ∈ s.cfg.sPortfData, laneRead .sys o s = hookValue s.hookF s.portF.data) ∧
    (∀ o : Nat, o ≠ s.cfg.tTcnt → o ≠ s.cfg.tTcnt + 1 → o ≠ s.cfg.tPortgp →
      laneRead .timer o s = s.byteAt .timer o) ∧
    (∀ o : Nat, o ∉ s.cfg.sPorteData → o ∉ s.cfg.sPortfData → laneRead .sys o s = s.byteAt .sys o) ∧
    (∀ o : Nat, laneRead .serial o s = s.byteAt .serial o)

/-- R81: the range test compares natural numbers, does not mask, and changes nothing but the result handed out. R82 and R83:
a region read in range answers the lanes it covers, high byte first, and changes nothing else. -/
def Obligations.RegionRangeTestAndReads : Prop :=
  (∀ (r : Region) (addr : Word), HasWord (0x28 + regionNumber r) addr 0 (inrangeOf r addr) ∧
      HasWord (0x30 + regionNumber r) addr 0 (r8Of r addr) ∧ HasWord (0x34 + regionNumber r) addr 0 (r16Of r addr)) ∧
  ((regionSize .timer = 64 ∧ regionSize .sys = 128 ∧ regionSize .serial = 512) ∧
      ∀ (r : Region) (addr : Word) (s : State), ∃ b : Bool,
        exec (inrangeOf r addr) s = .next (s.setResult (.bit b)) ∧
          (b = true ↔ regionBase s.cfg r ≤ addr.toNat ∧ addr.toNat < regionBase s.cfg r + regionSize r)) ∧
  (∀ (r : Region) (addr : Word) (s : State),
      (Claims s.cfg r addr.toNat →
        exec (r8Of r addr) s = .next (s.setResult (.byte (laneRead r (addr.toNat - regionBase s.cfg r) s)))) ∧
      (Claims s.cfg r addr.toNat → Claims s.cfg r (addr.toNat + 1) → addr.toNat % 2 = 0 →
        exec (r16Of r addr) s = .next (s.setResult (.half (laneRead r (addr.toNat - regionBase s.cfg r) s ++
          laneRead r (addr.toNat - regionBase s.cfg r + 1) s)))) ∧
      (¬ Claims s.cfg r addr.toNat → exec (r8Of r addr) s = .refused .outOfRange) ∧
      (addr.toNat % 2 = 1 → Claims s.cfg r addr.toNat → exec (r16Of r addr) s = .refused .misaligned) ∧
      (addr.toNat % 2 = 0 → ¬ (Claims s.cfg r addr.toNat ∧ Claims s.cfg r (addr.toNat + 1)) →
        exec (r16Of r addr) s = .refused .outOfRange))

/-- R80 (and R84, R85, R117 where a write has no side effect): at an offset of no register, and at the mask register, a
read answers the storage bytes and a write replaces them, high byte first, and nothing else happens. -/
def Obligations.RegionWritesStorePlainBytes : Prop :=
  ∀ (r : Region) (addr : Word) (s : State) (o : Nat), s.Inv → o = addr.toNat - regionBase s.cfg r →
    Claims s.cfg r addr.toNat → (regAt s.cfg r o = none ∨ regAt s.cfg r o = some .tmsk) →
    exec (r8Of r addr) s = .next (s.setResult (.byte (s.byteAt r o))) ∧
    (∀ v : Byte, ∃ t, exec (w8Of r addr v) s = .next t ∧ t = (s.setByte r o v).setResult .none ∧
      t.byteAt r o = v ∧ SameStorageBut r o 1 s t) ∧
    (∀ v : Half, Claims s.cfg r (addr.toNat + 1) → addr.toNat % 2 = 0 →
      (regAt s.cfg r (o + 1) = none ∨ regAt s.cfg r (o + 1) = some .tmsk) →
      exec (r16Of r addr) s = .next (s.setResult (.half (s.byteAt r o ++ s.byteAt r (o + 1)))) ∧
      ∃ t, exec (w16Of r addr v) s = .next t ∧ t = (s.setReg16 r o v).setResult .none ∧
        t.byteAt r o = v.extractLsb' 8 8 ∧ t.byteAt r (o + 1) = v.extractLsb' 0 8 ∧ SameStorageBut r o 2 s t)

/-- The port operation that writing a byte to a port register amounts to (R96, R98, R99). -/
def portOperation : Option Reg → Byte → List Instr
  | some (.dir p), v => [.pSetdir p v]
  | some (.data p), v => [.pWritetx p v]
  | some (.assign p), v => [.pEnable p (~~~v)]
  | _, _ => []

/-- R87 where a write touches port registers, in both widths: all bytes are stored first; then each register touched acts,
once, in ascending order of offset. A word over a direction and a data register therefore sets the direction first and
masks the data with it (R103). -/
def Obligations.WordWriteRunsBothPortRegisters : Prop :=
  ∀ (r : Region) (addr : Word) (s : State) (o : Nat), s.Inv → o = addr.toNat - regionBase s.cfg r →
    Claims s.cfg r addr.toNat →
    (∀ (v : Byte), portOperation (regAt s.cfg r o) v ≠ [] →
      exec (w8Of r addr v) s =
        execList (portOperation (regAt s.cfg r o) v) ((s.setByte r o v).setResult .none)) ∧
    (∀ (v : Half), addr.toNat % 2 = 0 → Claims s.cfg r (addr.toNat + 1) →
      regAt s.cfg r o ≠ regAt s.cfg r (o + 1) →
      exec (w16Of r addr v) s =
        execList (portOperation (regAt s.cfg r o) (v.extractLsb' 8 8) ++
          portOperation (regAt s.cfg r (o + 1)) (v.extractLsb' 0 8)) ((s.setReg16 r o v).setResult .none))

/-- R55: at every even offset of a window that holds no port data register and no `Tcnt`, a word that was written is read
back, whatever else the write set off (the registers whose write has a side effect included). -/
def Obligations.WordsAreReadBack : Prop :=
  ∀ (r : Region) (addr : Word) (v : Half) (s t : State) (o : Nat), s.Inv → o = addr.toNat - regionBase s.cfg r →
    (∀ p : Port, regAt s.cfg r o ≠ some (.data p) ∧ regAt s.cfg r (o + 1) ≠ some (.data p)) →
    regAt s.cfg r o ≠ some .tcnt → exec (w16Of r addr v) s = .next t →
    exec (r16Of r addr) t = .next (t.setResult (.half v))

/-- R88 (U1): a region access with a byte outside the region is refused. A 16-bit one at an odd address is refused too
(R43), whichever of the two reasons is named where both apply. -/
def Obligations.RegionAccessOutsideIsRefused : Prop :=
  ∀ (s : State) (r : Region) (addr : Word),
    (¬ Claims s.cfg r addr.toNat → exec (r8Of r addr) s = .refused .outOfRange ∧
      ∀ v : Byte, exec (w8Of r addr v) s = .refused .outOfRange) ∧
    (addr.toNat % 2 = 0 → ¬ (Claims s.cfg r addr.toNat ∧ Claims s.cfg r (addr.toNat + 1)) →
      exec (r16Of r addr) s = .refused .outOfRange ∧ ∀ v : Half, exec (w16Of r addr v) s = .refused .outOfRange) ∧
    (addr.toNat % 2 = 1 → Claims s.cfg r addr.toNat → Claims s.cfg r (addr.toNat + 1) →
      exec (r16Of r addr) s = .refused .misaligned ∧ ∀ v : Half, exec (w16Of r addr v) s = .refused .misaligned) ∧
    (addr.toNat % 2 = 1 → ¬ (Claims s.cfg r addr.toNat ∧ Claims s.cfg r (addr.toNat + 1)) →
      ∀ (v : Half), ∀ i ∈ [r16Of r addr, w16Of r addr v],
        exec i s = .refused .misaligned ∨ exec i s = .refused .outOfRange)

/-! ### Ports (`41_gpio_port.md`) -/

/-- R90: the direction is replaced and the event carries it, on every call; data, enabled pins and counter stay. With no
listener that is all; otherwise what the listeners do follows. -/
def Obligations.SetDirection : Prop :=
  ∀ (p : Port) (m : Byte) (s : State), HasWord 0x50 (portWord p) (byteWord m) (.pSetdir p m) ∧
    (s.orderly → ∃ t, exec (.pSetdir p m) s = .next t ∧
      Reacted (((s.setPort p { s.port p with direction := m }).log (.dirChange p m)).setResult .none) t ∧
      (s.quiet → t = ((s.setPort p { s.port p with direction := m }).log (.dirChange p m)).setResult .none) ∧
      (t.port p).direction = m ∧ (t.port p).enabledPins = (s.port p).enabledPins ∧
      (t.port p).writeCounter = (s.port p).writeCounter ∧ SameStorage s t)

/-- R91: bit by bit, the enabled output pins take the byte and the others keep theirs; the counter goes up by one (at its
end the spec gives no next value, and a free one follows: log entry 8); then the event carries the new data. With no
listener that is all. -/
def Obligations.WriteTx : Prop :=
  ∀ (p : Port) (b : Byte) (s : State), HasWord 0x51 (portWord p) (byteWord b) (.pWritetx p b) ∧
    (s.orderly → ∃ (d : Byte) (w : BitVec 64) (n : Nat) (t : State), exec (.pWritetx p b) s = .next t ∧
      (∀ i : Nat, i < 8 → d.getLsbD i =
        if (s.port p).direction.getLsbD i && (s.port p).enabledPins.getLsbD i then b.getLsbD i
        else (s.port p).data.getLsbD i) ∧
      ((s.port p).writeCounter.toNat < 2 ^ 64 - 1 →
        w.toNat = (s.port p).writeCounter.toNat + 1 ∧ n = s.freeCount) ∧
      Reacted ({ (s.setPort p { s.port p with data := d, writeCounter := w }).log (.txWrite p d) with
        freeCount := n }.setResult .none) t ∧
      (s.quiet → t = { (s.setPort p { s.port p with data := d, writeCounter := w }).log (.txWrite p d) with
        freeCount := n }.setResult .none) ∧ SameStorage s t)

/-- R92: bit by bit, the enabled input pins follow the outside; no event, no counter, nothing else. -/
def Obligations.WriteRx : Prop :=
  ∀ (p : Port) (b : Byte) (s : State), HasWord 0x52 (portWord p) (byteWord b) (.pWriterx p b) ∧ ∃ d : Byte,
    exec (.pWriterx p b) s = .next ((s.setPort p { s.port p with data := d }).setResult .none) ∧
      ∀ i : Nat, i < 8 → d.getLsbD i =
        if !(s.port p).direction.getLsbD i && (s.port p).enabledPins.getLsbD i then b.getLsbD i
        else (s.port p).data.getLsbD i

/-- R93, R94: reading a port answers its data through the hook it has now and changes nothing; enabling pins replaces the
enable mask and nothing else. -/
def Obligations.PortReadAndEnable : Prop :=
  ∀ (p : Port) (s : State), HasWord 0x53 (portWord p) 0 (.pRead p) ∧
    exec (.pRead p) s = .next (s.setResult (.byte (hookValue (s.hook p) (s.port p).data))) ∧
    (s.hook p = .identity → exec (.pRead p) s = .next (s.setResult (.byte (s.port p).data))) ∧
    ∀ m : Byte, HasWord 0x54 (portWord p) (byteWord m) (.pEnable p m) ∧ ∃ t, exec (.pEnable p m) s = .next t ∧ t.port p = { s.port p with enabledPins := m } ∧
      SamePortsBut p s t ∧ t = (s.setPort p (t.port p)).setResult .none

/-- R95, the mask laws, over what the two writes leave in the data: (a) the two sides' masks are disjoint and make up the
enabled pins; (b) a disabled pin keeps its bit under both; (c) writing the same byte twice leaves the data of one write,
two more in the counter and two events; (d) the two sides commute on the data. -/
def Obligations.PortMaskLaws : Prop :=
  ∀ (p : Port) (b c : Byte) (s : State), s.quiet → (s.port p).writeCounter.toNat + 2 < 2 ^ 64 →
    ((s.port p).direction &&& (s.port p).enabledPins) &&& (~~~(s.port p).direction &&& (s.port p).enabledPins) = 0 ∧
    ((s.port p).direction &&& (s.port p).enabledPins) ||| (~~~(s.port p).direction &&& (s.port p).enabledPins) =
      (s.port p).enabledPins ∧
    ∃ tx txtx rx txrx rxtx : State,
      exec (.pWritetx p b) s = .next tx ∧ exec (.pWritetx p b) tx = .next txtx ∧ exec (.pWriterx p c) s = .next rx ∧
      exec (.pWriterx p c) tx = .next txrx ∧ exec (.pWritetx p b) rx = .next rxtx ∧
      (∀ i : Nat, i < 8 → (s.port p).enabledPins.getLsbD i = false →
        (tx.port p).data.getLsbD i = (s.port p).data.getLsbD i ∧ (rx.port p).data.getLsbD i = (s.port p).data.getLsbD i) ∧
      (txtx.port p).data = (tx.port p).data ∧
      (txtx.port p).writeCounter.toNat = (s.port p).writeCounter.toNat + 2 ∧
      txtx.out = s.out ++ [.txWrite p (tx.port p).data, .txWrite p (tx.port p).data] ∧
      (txrx.port p).data = (rxtx.port p).data

/-! ### Interrupts (`44_interrupt_arbiter.md`) -/

/-- R150: the vector goes to the back of its level's queue, duplicates and all (R157); the request level becomes the
highest non-empty one and is reported. At level 0 the request level does not change (R154). -/
def Obligations.InjectAppendsAndRescans : Prop :=
  ∀ (vec : Byte) (lvl : Level) (s : State), HasWord 0x60 (levelWord lvl) (byteWord vec) (.inject vec lvl) ∧
    (s.orderly → ∃ t, exec (.inject vec lvl) s = .next t ∧ t.irq = highest t.queue ∧
      s.queue[lvl] ++ [vec] <+: t.queue[lvl] ∧
      Reacted s (t.setResult s.result) ∧ t.result = .none ∧ SameStorage s t ∧
      (s.quiet → t.queue[lvl] = s.queue[lvl] ++ [vec] ∧ (∀ l : Level, l ≠ lvl → t.queue[l] = s.queue[l]) ∧
        t.out = s.out ++ [.irqLine t.irq] ∧
        t = { s with queue := t.queue, irq := t.irq, out := t.out, result := .none } ∧
        (s.irq = highest s.queue → t.irq.val = if lvl = 0 then s.irq.val else max s.irq.val lvl.val)))

/-- R151: whether a vector stands in the queue of one level is answered, and nothing changes. R152 and R158: the acknowledge
takes the front of the addressed level's queue, clears the line, rescans, and answers the vector; on an empty queue it
answers the autovector sentinel, and no state changes and no event stands. -/
def Obligations.PendingTestAndAcknowledge : Prop :=
  (∀ (vec : Byte) (lvl : Level) (s : State), HasWord 0x61 (levelWord lvl) (byteWord vec) (.haspend vec lvl) ∧ ∃ b : Bool,
      exec (.haspend vec lvl) s = .next (s.setResult (.bit b)) ∧ (b = true ↔ vec ∈ s.queue[lvl])) ∧
  (∀ (lvl : Level) (s : State), HasWord 0x62 (levelWord lvl) 0 (.ack lvl) ∧
      (s.queue[lvl] = [] → exec (.ack lvl) s = .next (s.setResult (.word s.cfg.autovector))) ∧
      (∀ (vec : Byte) (rest : List Byte), s.queue[lvl] = vec :: rest → s.orderly →
        ∃ t, exec (.ack lvl) s = .next t ∧ t.result = .word (BitVec.ofNat 32 vec.toNat) ∧ t.irq = highest t.queue ∧
          rest <+: t.queue[lvl] ∧ (∀ l : Level, l ≠ lvl → s.queue[l] <+: t.queue[l]) ∧ SameStorage s t ∧
          t.cycles = s.cycles ∧ t.acc = s.acc ∧ SameClock s t ∧
          (s.quiet → t.queue[lvl] = rest ∧ (∀ l : Level, l ≠ lvl → t.queue[l] = s.queue[l]) ∧
            t.out = s.out ++ [.irqLine 0, .irqLine t.irq] ∧
            t = { s with queue := t.queue, irq := t.irq, out := t.out, result := t.result })))

/-- R156 within a level: vectors injected into an empty queue are acknowledged in the order of their injection, whatever
is pending at the other levels. -/
def Obligations.LevelsAreFirstInFirstOut : Prop :=
  ∀ (vecs : List Byte) (lvl : Level) (s : State), s.quiet → s.queue[lvl] = [] →
    ∃ t, execList (vecs.map fun v => Instr.inject v lvl) s = .next t ∧ t.queue[lvl] = vecs ∧ t.quiet ∧
      ∀ (before after : List Byte) (v : Byte), vecs = before ++ v :: after →
        ∃ u w, execList (before.map fun _ => Instr.ack lvl) t = .next u ∧ exec (.ack lvl) u = .next w ∧
          w.result = .word (BitVec.ofNat 32 v.toNat) ∧ w.queue[lvl] = after

/-! ### The bus (`45_dispatch.md`) -/

/-- R165 to R168 and R175: a bus read masks its address to 20 bits; in a window it answers the region's lanes (a 16-bit one
at an even address; at an odd one it is refused), elsewhere zero; nothing else changes. -/
def Obligations.BusReadsReachTheLanes : Prop :=
  ∀ (s : State) (addr : Word) (a : Nat), s.cfg.WF → a = addr.toNat % 2 ^ 20 →
    HasWord 0x01 addr 0 (.read8 addr) ∧ HasWord 0x02 addr 0 (.read16 addr) ∧
    (∀ r : Region, Claims s.cfg r a →
      exec (.read8 addr) s = .next (s.setResult (.byte (laneRead r (a - regionBase s.cfg r) s))) ∧
      (a % 2 = 0 → exec (.read16 addr) s = .next (s.setResult
        (.half (laneRead r (a - regionBase s.cfg r) s ++ laneRead r (a - regionBase s.cfg r + 1) s)))) ∧
      (a % 2 = 1 → exec (.read16 addr) s = .refused .misaligned)) ∧
    ((∀ r : Region, ¬ Claims s.cfg r a) →
      exec (.read8 addr) s = .next (s.setResult (.byte 0)) ∧ exec (.read16 addr) s = .next (s.setResult (.half 0)))

/-- R169 and R172: a 32-bit access is two complete 16-bit ones, the high half first at the address, the low half at the
address plus two modulo `2^32`; the second half of a write runs in the state the first half leaves. -/
def Obligations.LongAccessIsTwoWordAccesses : Prop :=
  ∀ (s : State) (addr : Word),
    HasWord 0x04 addr 0 (.read32 addr) ∧ (∀ v : Word, HasWord 0x14 addr v (.write32 addr v)) ∧
    (∀ v : Word, exec (.write32 addr v) s =
      andThen (exec (.write16 addr (v.extractLsb' 16 16)) s) (exec (.write16 (addr + 2) (v.extractLsb' 0 16)))) ∧
    (∀ hi lo : Half, exec (.read16 addr) s = .next (s.setResult (.half hi)) →
      exec (.read16 (addr + 2)) s = .next (s.setResult (.half lo)) →
      exec (.read32 addr) s = .next (s.setResult (.word (hi ++ lo)))) ∧
    (∀ e : Refusal, exec (.read16 addr) s = .refused e → exec (.read32 addr) s = .refused e) ∧
    (∀ (hi : Half) (e : Refusal), exec (.read16 addr) s = .next (s.setResult (.half hi)) →
      exec (.read16 (addr + 2)) s = .refused e → exec (.read32 addr) s = .refused e) ∧
    (addr.toNat % 2 = 0 → ∃ hi lo : Half, exec (.read16 addr) s = .next (s.setResult (.half hi)) ∧
      exec (.read16 (addr + 2)) s = .next (s.setResult (.half lo)) ∧
      exec (.read32 addr) s = .next (s.setResult (.word (hi ++ lo))))

/-- R173 and R174: an instruction-fetch read is the data read of its width, and answers at every even address. -/
def Obligations.FetchIsRead : Prop :=
  ∀ (addr : Word) (s : State),
    HasWord 0x22 addr 0 (.fetch16 addr) ∧ HasWord 0x24 addr 0 (.fetch32 addr) ∧
    exec (.fetch16 addr) s = exec (.read16 addr) s ∧ exec (.fetch32 addr) s = exec (.read32 addr) s ∧
    (addr.toNat % 2 = 0 →
      (∃ v : Half, exec (.fetch16 addr) s = .next (s.setResult (.half v)) ∧
        exec (.read16 addr) s = .next (s.setResult (.half v))) ∧
      ∃ v : Word, exec (.fetch32 addr) s = .next (s.setResult (.word v)) ∧
        exec (.read32 addr) s = .next (s.setResult (.word v)))

/-- R175: at an address no window claims, odd ones included, a read of any width answers 0 and a write of any width changes
nothing and emits nothing. (Of a 32-bit access, both halves are unclaimed.) -/
def Obligations.UnclaimedReadsZeroDropsWrites : Prop :=
  ∀ (s : State) (addr : Word), (∀ r : Region, ¬ Claims s.cfg r (addr.toNat % 2 ^ 20)) →
    exec (.read8 addr) s = .next (s.setResult (.byte 0)) ∧ exec (.read16 addr) s = .next (s.setResult (.half 0)) ∧
    exec (.fetch16 addr) s = .next (s.setResult (.half 0)) ∧
    (∀ v : Byte, exec (.write8 addr v) s = .next (s.setResult .none)) ∧
    (∀ v : Half, exec (.write16 addr v) s = .next (s.setResult .none)) ∧
    ((∀ r : Region, ¬ Claims s.cfg r ((addr.toNat + 2) % 2 ^ 20)) →
      exec (.read32 addr) s = .next (s.setResult (.word 0)) ∧ exec (.fetch32 addr) s = .next (s.setResult (.word 0)) ∧
      ∀ v : Word, exec (.write32 addr v) s = .next (s.setResult .none))

/-- R176: a 16-bit operation, or a half of a 32-bit one, at an odd claimed address is refused. -/
def Obligations.OddClaimedWordsAreRefused : Prop :=
  ∀ (s : State) (addr : Word), s.cfg.WF →
    (∀ r : Region, Claims s.cfg r (addr.toNat % 2 ^ 20) → addr.toNat % 2 = 1 →
      exec (.read16 addr) s = .refused .misaligned ∧ exec (.fetch16 addr) s = .refused .misaligned ∧
      ∀ v : Half, exec (.write16 addr v) s = .refused .misaligned) ∧
    (∀ r : Region, (Claims s.cfg r (addr.toNat % 2 ^ 20) ∨ Claims s.cfg r ((addr.toNat + 2) % 2 ^ 20)) →
      addr.toNat % 2 = 1 →
      exec (.read32 addr) s = .refused .misaligned ∧ exec (.fetch32 addr) s = .refused .misaligned ∧
      ∀ v : Word, exec (.write32 addr v) s = .refused .misaligned)

/-- R177: two addresses with the same low 20 bits are one address to every bus operation. -/
def Obligations.AddressesAliasModuloTheWindow : Prop :=
  ∀ (s : State) (addr addr2 : Word), addr.toNat % 2 ^ 20 = addr2.toNat % 2 ^ 20 →
    exec (.read8 addr) s = exec (.read8 addr2) s ∧ exec (.read16 addr) s = exec (.read16 addr2) s ∧
    exec (.read32 addr) s = exec (.read32 addr2) s ∧ exec (.fetch16 addr) s = exec (.fetch16 addr2) s ∧
    exec (.fetch32 addr) s = exec (.fetch32 addr2) s ∧
    (∀ v : Byte, exec (.write8 addr v) s = exec (.write8 addr2 v) s) ∧
    (∀ v : Half, exec (.write16 addr v) s = exec (.write16 addr2 v) s) ∧
    ∀ v : Word, exec (.write32 addr v) s = exec (.write32 addr2 v) s

/-- R178: the whole effect of a bus operation in a window is that of the region operation at the masked address. -/
def Obligations.BusAccessIsRegionAccess : Prop :=
  ∀ (s : State) (addr m : Word) (r : Region), s.cfg.WF → m = BitVec.ofNat 32 (addr.toNat % 2 ^ 20) →
    Claims s.cfg r m.toNat →
    exec (.read8 addr) s = exec (r8Of r m) s ∧ exec (.read16 addr) s = exec (r16Of r m) s ∧
    exec (.fetch16 addr) s = exec (r16Of r m) s ∧
    (∀ v : Byte, exec (.write8 addr v) s = exec (w8Of r m v) s) ∧
    ∀ v : Half, exec (.write16 addr v) s = exec (w16Of r m v) s

/-- Where a bus write completes, and its frame: at every address an 8-bit one, at every even address the wider ones, when
no listener issues a nested step and no load value of the configuration leaves `i32`. The bytes written hold the value,
but for `Tcnt`; every other byte of every storage, the cycle count, the configuration and the environment stay. (That a
load value outside `i32` would be refused is DEDUCED: log entry 14.) -/
def Obligations.BusWritesComplete : Prop :=
  ∀ (s : State) (addr : Word) (a a2 : Nat), s.Inv → s.orderly → LoadsFit s.cfg → a = addr.toNat % 2 ^ 20 →
    a2 = (addr.toNat + 2) % 2 ^ 20 →
    (∀ v : Byte, ∃ t, exec (.write8 addr v) s = .next t ∧ t.result = .none ∧ t.cycles = s.cycles ∧ t.cfg = s.cfg ∧
      t.requests = s.requests ∧ t.engine = s.engine ∧
      (∀ (r : Region) (o : Nat), regionBase s.cfg r + o ≠ a → t.byteAt r o = s.byteAt r o) ∧
      (∀ r : Region, Claims s.cfg r a → regAt s.cfg r (a - regionBase s.cfg r) ≠ some .tcnt →
        t.byteAt r (a - regionBase s.cfg r) = v)) ∧
    (addr.toNat % 2 = 0 → ∀ v : Half, ∃ t, exec (.write16 addr v) s = .next t ∧ t.result = .none ∧
      t.cycles = s.cycles ∧ t.cfg = s.cfg ∧ t.requests = s.requests ∧ t.engine = s.engine ∧
      (∀ (r : Region) (o : Nat), regionBase s.cfg r + o ≠ a → regionBase s.cfg r + o ≠ a + 1 →
        t.byteAt r o = s.byteAt r o) ∧
      (∀ r : Region, Claims s.cfg r a → regAt s.cfg r (a - regionBase s.cfg r) ≠ some .tcnt →
        t.byteAt r (a - regionBase s.cfg r) = v.extractLsb' 8 8 ∧
          t.byteAt r (a - regionBase s.cfg r + 1) = v.extractLsb' 0 8)) ∧
    (addr.toNat % 2 = 0 → ∀ v : Word, ∃ t, exec (.write32 addr v) s = .next t ∧ t.result = .none ∧
      t.cycles = s.cycles ∧ t.cfg = s.cfg ∧ t.requests = s.requests ∧ t.engine = s.engine ∧
      (∀ (r : Region) (o : Nat), regionBase s.cfg r + o ≠ a → regionBase s.cfg r + o ≠ a + 1 →
        regionBase s.cfg r + o ≠ a2 → regionBase s.cfg r + o ≠ a2 + 1 → t.byteAt r o = s.byteAt r o) ∧
      (∀ r : Region, Claims s.cfg r a → regAt s.cfg r (a - regionBase s.cfg r) ≠ some .tcnt →
        t.byteAt r (a - regionBase s.cfg r) = v.extractLsb' 24 8 ∧
          t.byteAt r (a - regionBase s.cfg r + 1) = v.extractLsb' 16 8) ∧
      (∀ r : Region, Claims s.cfg r a2 → regAt s.cfg r (a2 - regionBase s.cfg r) ≠ some .tcnt →
        t.byteAt r (a2 - regionBase s.cfg r) = v.extractLsb' 8 8 ∧
          t.byteAt r (a2 - regionBase s.cfg r + 1) = v.extractLsb' 0 8))

/-! ### Registers by name (`30_encoding.md` R64, R70; `10_state.md` R22, R23) -/

/-- R70: an access to a named register is the bus operation of its width at the register's address, and the region
operation there. -/
def Obligations.NamedAccessIsBusAccess : Prop :=
  ∀ (n : RegName) (s : State) (r : Region) (x : Nat), s.cfg.WF → namedAt s.cfg n = (r, x) →
    (∀ (lo : Bool) (a : Word), a = BitVec.ofNat 32 (regionBase s.cfg r + x + lo.toNat) →
      (n.instr (.read8 lo)).wf = true →
      exec (n.instr (.read8 lo)) s = exec (.read8 a) s ∧ exec (n.instr (.read8 lo)) s = exec (r8Of r a) s ∧
      ∀ v : Byte, exec (n.instr (.write8 lo v)) s = exec (.write8 a v) s ∧
        exec (n.instr (.write8 lo v)) s = exec (w8Of r a v) s) ∧
    (∀ a : Word, a = BitVec.ofNat 32 (regionBase s.cfg r + x) → (n.instr .read16).wf = true →
      exec (n.instr .read16) s = exec (.read16 a) s ∧ exec (n.instr .read16) s = exec (r16Of r a) s ∧
      ∀ v : Half, exec (n.instr (.write16 v)) s = exec (.write16 a v) s ∧
        exec (n.instr (.write16 v)) s = exec (w16Of r a v) s)

/-- R98 (and R100): `DDRGP`, `DDRE`, `DDRF`: a write stores the byte, sets the port's direction to it and emits the event.
R99: `PEPAR`, `PFPAR`: a write stores the byte and enables the pins whose bit is 0. A read of either kind answers the
storage byte and changes nothing. -/
def Obligations.DirectionAndAssignmentRegisters : Prop :=
  (∀ (n : RegName) (p : Port) (s : State) (r : Region) (x : Nat), directionPort n = some p → s.Inv →
      namedAt s.cfg n = (r, x) →
      exec (n.instr (.read8 false)) s = .next (s.setResult (.byte (s.byteAt r x))) ∧
      ∀ (v : Byte) (u : State), s.orderly →
        u = ((((s.setByte r x v).setPort p { s.port p with direction := v }).log (.dirChange p v)).setResult .none) →
        ∃ t, exec (n.instr (.write8 false v)) s = .next t ∧ t.byteAt r x = v ∧ SameStorageBut r x 1 s t ∧
          (t.port p).direction = v ∧ Reacted u t ∧ (s.quiet → t = u)) ∧
  (∀ (n : RegName) (p : Port) (s : State) (r : Region) (x : Nat), assignPort n = some p → s.Inv →
      namedAt s.cfg n = (r, x) →
      exec (n.instr (.read8 false)) s = .next (s.setResult (.byte (s.byteAt r x))) ∧
      ∀ v : Byte, ∃ t, exec (n.instr (.write8 false v)) s = .next t ∧ t.byteAt r x = v ∧ SameStorageBut r x 1 s t ∧
        (∀ i : Nat, i < 8 → (t.port p).enabledPins.getLsbD i = !v.getLsbD i) ∧
        t = ((s.setByte r x v).setPort p { s.port p with enabledPins := ~~~v }).setResult .none)

/-- R96 and R97 (and R100): `PORTGP` and both addresses of `PORTE` and `PORTF`: a write stores the byte and runs the
port's transmit write; a read answers the port's data through its hook, whatever the storage byte is. -/
def Obligations.DataRegisters : Prop :=
  ∀ (n : RegName) (p : Port) (s : State) (r : Region) (x : Nat), dataPort n = some p → s.Inv →
    namedAt s.cfg n = (r, x) →
    exec (n.instr (.read8 false)) s = .next (s.setResult (.byte (hookValue (s.hook p) (s.port p).data))) ∧
    ∀ v : Byte, s.orderly →
      exec (n.instr (.write8 false v)) s = exec (.pWritetx p v) (s.setByte r x v) ∧
      ∃ t, exec (n.instr (.write8 false v)) s = .next t ∧ t.byteAt r x = v ∧ SameStorageBut r x 1 s t ∧
        (t.port p).direction = (s.port p).direction ∧ (t.port p).enabledPins = (s.port p).enabledPins ∧
        (s.quiet → (∀ i : Nat, i < 8 → (t.port p).data.getLsbD i =
            if (s.port p).direction.getLsbD i && (s.port p).enabledPins.getLsbD i then v.getLsbD i
            else (s.port p).data.getLsbD i) ∧
          t.out = s.out ++ [.txWrite p (t.port p).data] ∧ SamePortsBut p s t ∧ SameTimers s t ∧ SameClock s t ∧
          SameQueues s t ∧ SameEnvironment s t ∧ t.result = .none)

/-- R110 and R111: `Tcnt` reads as the cycle count divided by 4, modulo `2^16`, whole or by halves; a write to it, whole or
to either byte, stores nothing and does nothing. -/
def Obligations.CounterRegister : Prop :=
  ∀ s : State, s.cfg.WF →
    exec (.tcnt .read16) s = .next (s.setResult (.half (BitVec.ofNat 16 (s.cycles.toNat / 4)))) ∧
    exec (.tcnt (.read8 false)) s = .next (s.setResult (.byte (BitVec.ofNat 8 (s.cycles.toNat / 4 / 256)))) ∧
    exec (.tcnt (.read8 true)) s = .next (s.setResult (.byte (BitVec.ofNat 8 (s.cycles.toNat / 4)))) ∧
    (∀ v : Half, exec (.tcnt (.write16 v)) s = .next (s.setResult .none)) ∧
    ∀ (lo : Bool) (v : Byte), exec (.tcnt (.write8 lo v)) s = .next (s.setResult .none)

/-- R115, in the multichannel variant: writing a target register, whole or one byte of it, stores and then brings that
channel's accumulator into the wrap below the new target, by multiples of `WRAP`; the flag, the other channels and
everything else stay. Reads answer the storage. -/
def Obligations.TargetRegisters : Prop :=
  ∀ (n : RegName) (k : Channel) (s : State) (x : Nat), targetChannel n = some k → s.Inv → x = s.cfg.tToc[k] →
    (∀ lo : Bool, exec (n.instr (.read8 lo)) s = .next (s.setResult (.byte (s.byteAt .timer (x + lo.toNat))))) ∧
    exec (n.instr .read16) s = .next (s.setResult (.half (s.reg16 .timer x))) ∧
    (s.cfg.variant = .multichannel →
      ∀ (acc : RegAccess) (u t : State),
        (∃ v, acc = .write16 v ∧ u = s.setReg16 .timer x v) ∨
          (∃ lo v, acc = .write8 lo v ∧ u = s.setByte .timer (x + lo.toNat) v) →
        t = (u.setAcc k (resyncValue (u.target k) s.acc[k])).setResult .none →
        exec (n.instr acc) s = .next t ∧ SameStorageBut .timer x 2 s t ∧
          (∀ v, acc = .write16 v → t.target k = 4 * v.toNat) ∧
          t.target k - 0x40000 < t.acc[k] ∧ t.acc[k] ≤ t.target k ∧ (t.acc[k] - s.acc[k]) % 0x40000 = 0 ∧
          (∀ j : Channel, j ≠ k → t.acc[j] = s.acc[j] ∧ t.target j = s.target j) ∧
          ∀ j : Channel, t.flag j = s.flag j)

/-- R117: `TMSK` is plain storage: a read answers it, a write stores the bytes and has no side effect, whatever the flags
are (R226). -/
def Obligations.MaskRegister : Prop :=
  ∀ (s : State) (x : Nat), s.Inv → x = s.cfg.tTmsk →
    exec (.tmsk .read16) s = .next (s.setResult (.half (s.reg16 .timer x))) ∧
    (∀ lo : Bool, exec (.tmsk (.read8 lo)) s = .next (s.setResult (.byte (s.byteAt .timer (x + lo.toNat))))) ∧
    (∀ v : Half, ∃ t, exec (.tmsk (.write16 v)) s = .next t ∧ t = (s.setReg16 .timer x v).setResult .none ∧
      t.reg16 .timer x = v ∧ (∀ k : Channel, t.mask k = v.getLsbD s.cfg.ocBit[k]) ∧ SameStorageBut .timer x 2 s t) ∧
    (∀ (lo : Bool) (v : Byte), ∃ t, exec (.tmsk (.write8 lo v)) s = .next t ∧
      t = (s.setByte .timer (x + lo.toNat) v).setResult .none ∧ SameStorageBut .timer (x + lo.toNat) 1 s t)

/-- R116, in the multichannel variant: writing `TFLG`, whole or one byte, stores the bytes as written and then
resynchronises all four channels to their own targets; no interrupt is raised. Reads answer the storage. -/
def Obligations.FlagRegister : Prop :=
  ∀ (s : State) (x : Nat), s.Inv → x = s.cfg.tTflg →
    exec (.tflg .read16) s = .next (s.setResult (.half (s.reg16 .timer x))) ∧
    (∀ lo : Bool, exec (.tflg (.read8 lo)) s = .next (s.setResult (.byte (s.byteAt .timer (x + lo.toNat))))) ∧
    (s.cfg.variant = .multichannel →
      ∀ (acc : RegAccess) (u : State),
        (∃ v, acc = .write16 v ∧ u = s.setReg16 .timer x v) ∨
          (∃ lo v, acc = .write8 lo v ∧ u = s.setByte .timer (x + lo.toNat) v) →
        ∃ t, exec (.tflg acc) s = .next t ∧ t = { u with acc := t.acc, result := .none } ∧
          SameStorageBut .timer x 2 s t ∧ (∀ v, acc = .write16 v → ∀ k : Channel, t.flag k = v.getLsbD s.cfg.ocBit[k]) ∧
          ∀ k : Channel, t.acc[k] = resyncValue (s.target k) s.acc[k])

/-- R132: any write to `SYNCR` stores, recomputes the system clock from the new value, and restarts the periodic timer
from its recomputed load value, also when no field changes (R233). Reads answer the storage. -/
def Obligations.ClockControlRegister : Prop :=
  ∀ (s : State) (x : Nat), s.Inv → x = s.cfg.sSyncr →
    exec (.syncr .read16) s = .next (s.setResult (.half (s.reg16 .sys x))) ∧
    (∀ lo : Bool, exec (.syncr (.read8 lo)) s = .next (s.setResult (.byte (s.byteAt .sys (x + lo.toNat))))) ∧
    ∀ (acc : RegAccess) (u : State) (load : Int),
      (∃ v, acc = .write16 v ∧ u = s.setReg16 .sys x v) ∨
        (∃ lo v, acc = .write8 lo v ∧ u = s.setByte .sys (x + lo.toNat) v) →
      load = pitLoadOf s.cfg (s.reg16 .sys s.cfg.sPicr) (s.reg16 .sys s.cfg.sPitr) (clockOf s.cfg (u.reg16 .sys x)) →
      load ≤ 0x7FFFFFFF → ∃ t, exec (.syncr acc) s = .next t ∧ SameStorageBut .sys x 2 s t ∧
        (∀ v, acc = .write16 v → t.reg16 .sys x = v) ∧
        t = { u with sysclk := clockOf s.cfg (u.reg16 .sys x), pitLoad := load, pitCur := load, result := .none }

/-- R134: any write to `PICR` or `PITR` stores and restarts the periodic timer from its recomputed load value. Reads answer
the storage. -/
def Obligations.PeriodicTimerRegisters : Prop :=
  ∀ (n : RegName) (s : State) (x : Nat), (n = .picr ∧ x = s.cfg.sPicr ∨ n = .pitr ∧ x = s.cfg.sPitr) → s.Inv →
    exec (n.instr .read16) s = .next (s.setResult (.half (s.reg16 .sys x))) ∧
    (∀ lo : Bool, exec (n.instr (.read8 lo)) s = .next (s.setResult (.byte (s.byteAt .sys (x + lo.toNat))))) ∧
    ∀ (acc : RegAccess) (u : State) (load : Int),
      (∃ v, acc = .write16 v ∧ u = s.setReg16 .sys x v) ∨
        (∃ lo v, acc = .write8 lo v ∧ u = s.setByte .sys (x + lo.toNat) v) →
      load = pitLoadOf s.cfg (u.reg16 .sys s.cfg.sPicr) (u.reg16 .sys s.cfg.sPitr)
        (clockOf s.cfg (s.reg16 .sys s.cfg.sSyncr)) →
      load ≤ 0x7FFFFFFF → ∃ t, exec (n.instr acc) s = .next t ∧ SameStorageBut .sys x 2 s t ∧
        (∀ v, acc = .write16 v → t.reg16 .sys x = v) ∧
        t = { u with pitLoad := load, pitCur := load, result := .none }

/-- R237: writing a target register, or `PICR`, byte by byte, high then low, with nothing in between, ends in the state
of the one 16-bit write. -/
def Obligations.TwoByteWritesEndAsOneWord : Prop :=
  ∀ (n : RegName) (s : State) (hi lo : Byte), (targetChannel n ≠ none ∨ n = .picr) → s.Inv → LoadsFit s.cfg →
    ∃ t, exec (n.instr (.write16 (hi ++ lo))) s = .next t ∧
      andThen (exec (n.instr (.write8 false hi)) s) (exec (n.instr (.write8 true lo))) = .next t

/-! ### The timer's exec step (`42_timer.md`) -/

/-- R114: the two loops end, for every accumulator and target; where they end is the closed form, the one value congruent to
the accumulator modulo `WRAP` that lies at most the target and above the target less `WRAP`. -/
def Obligations.ResyncLoopsEndInTheClosedForm : Prop :=
  ∀ t a : Int,
    (∃ n : Nat, ∀ m1 m2 : Nat, n ≤ m1 → n ≤ m2 → resyncUp t m2 (resyncDown t m1 a) = resyncValue t a) ∧
    (resyncValue t a - a) % 0x40000 = 0 ∧ t - 0x40000 < resyncValue t a ∧ resyncValue t a ≤ t ∧
    (∀ x : Int, (x - a) % 0x40000 = 0 → t - 0x40000 < x → x ≤ t → x = resyncValue t a) ∧
    (resyncValue t a = t ↔ (t - a) % 0x40000 = 0)

/-- The vectors an exec step of `d` cycles raises: those of the active channels, ascending, that reach their target with
their flag 0 and their mask bit 1, and whose vector is not already pending (R118, R120). -/
def raisedVectors (s : State) (d : Nat) : List Byte :=
  ((activeChannels s.cfg.activeOc).filter fun k =>
      !s.flag k && decide (s.target k ≤ s.acc[k] + d) && s.mask k &&
        decide (s.cfg.tVecBase + BitVec.ofNat 8 k.val ∉ s.queue[s.cfg.tLevel])).map
    fun k => s.cfg.tVecBase + BitVec.ofNat 8 k.val

/-- R118 to R120 and R123 (U4), with no listener: the exec step visits the first `ACTIVE_OC` channels, in ascending order;
every one of them advances its accumulator; one that reaches its target has its flag set, and raises its vector if the flag
was 0, its mask bit is 1 and the vector is not pending; inactive channels do nothing. The flag register is the only storage
touched, and only at the channels' bits. The step is refused when an active accumulator would pass `2^31 - 1`. -/
def Obligations.TimerExecStep : Prop :=
  (∀ delta : Word, HasWord 0x78 0 delta (.tExec delta)) ∧
  (∀ n : ActiveOc, (activeChannels n).Pairwise (· < ·) ∧ ∀ k : Channel, k ∈ activeChannels n ↔ k.val < n.count) ∧
  (∀ (delta : Word) (s : State), s.Inv → s.quiet → s.cfg.variant = .multichannel → delta.toNat < 2 ^ 31 →
      (∀ k ∈ activeChannels s.cfg.activeOc, s.acc[k] + delta.toNat ≤ 0x7FFFFFFF) →
      ∃ t, exec (.tExec delta) s = .next t ∧
        (∀ k ∈ activeChannels s.cfg.activeOc, t.acc[k] = s.acc[k] + delta.toNat ∧
          t.flag k = (s.flag k || decide (s.target k ≤ s.acc[k] + delta.toNat))) ∧
        (∀ k : Channel, k ∉ activeChannels s.cfg.activeOc → t.acc[k] = s.acc[k] ∧ t.flag k = s.flag k) ∧
        (∀ b : Nat, (∀ k : Channel, b ≠ s.cfg.ocBit[k]) →
          (t.reg16 .timer s.cfg.tTflg).getLsbD b = (s.reg16 .timer s.cfg.tTflg).getLsbD b) ∧
        SameStorageBut .timer s.cfg.tTflg 2 s t ∧
        t.queue[s.cfg.tLevel] = s.queue[s.cfg.tLevel] ++ raisedVectors s delta.toNat ∧
        (∀ l : Level, l ≠ s.cfg.tLevel → t.queue[l] = s.queue[l]) ∧ t.irq = highest t.queue ∧
        t.out = s.out ++ (raisedVectors s delta.toNat).map (fun _ => Event.irqLine t.irq) ∧
        SamePorts s t ∧ t.cycles = s.cycles ∧ t.prevTcnt = s.prevTcnt ∧ SameClock s t ∧ SameEnvironment s t ∧
        t.freeCount = s.freeCount ∧ t.result = .none) ∧
  (∀ (delta : Word) (s : State), s.quiet → s.cfg.variant = .multichannel → delta.toNat < 2 ^ 31 →
      (∃ k ∈ activeChannels s.cfg.activeOc, s.acc[k] + delta.toNat > 0x7FFFFFFF) →
      exec (.tExec delta) s = .refused .i32Range)

/-- R122, the legacy variant: a write to a target register or to `TFLG` stores and has no side effect; the exec step raises
all four vectors, duplicates and all, exactly when the counter is lower than at the step before, and remembers the
counter; no flag, mask or accumulator takes part. -/
def Obligations.LegacyVariant : Prop :=
  (∀ (n : RegName) (s : State) (x : Nat), (targetChannel n ≠ none ∨ n = .tflg) → s.Inv → s.cfg.variant = .legacy →
      namedAt s.cfg n = (.timer, x) →
      (∀ v : Half, ∃ t, exec (n.instr (.write16 v)) s = .next t ∧ t = (s.setReg16 .timer x v).setResult .none ∧
        t.reg16 .timer x = v ∧ SameStorageBut .timer x 2 s t) ∧
      (∀ (lo : Bool) (v : Byte), ∃ t, exec (n.instr (.write8 lo v)) s = .next t ∧
        t = (s.setByte .timer (x + lo.toNat) v).setResult .none ∧ SameStorageBut .timer (x + lo.toNat) 1 s t)) ∧
  (∀ (delta : Word) (s : State), s.quiet → s.cfg.variant = .legacy → delta.toNat < 2 ^ 31 →
      ∃ t, exec (.tExec delta) s = .next t ∧ t.prevTcnt.toNat = s.cycles.toNat / 4 % 65536 ∧
        (s.cycles.toNat / 4 % 65536 ≥ s.prevTcnt.toNat → t = { s with prevTcnt := t.prevTcnt, result := .none }) ∧
        (s.cycles.toNat / 4 % 65536 < s.prevTcnt.toNat →
          t.queue[s.cfg.tLevel] = s.queue[s.cfg.tLevel] ++
            [s.cfg.tVecBase, s.cfg.tVecBase + 1, s.cfg.tVecBase + 2, s.cfg.tVecBase + 3] ∧
          (∀ l : Level, l ≠ s.cfg.tLevel → t.queue[l] = s.queue[l]) ∧ t.irq = highest t.queue ∧
          t.out = s.out ++ List.replicate 4 (Event.irqLine t.irq) ∧
          t = { s with queue := t.queue, irq := t.irq, out := t.out, prevTcnt := t.prevTcnt, result := .none }))

/-- The sum of a list of elapsed cycles. -/
def totalCycles (ds : List Word) : Nat := (ds.map BitVec.toNat).sum

/-- The source's flag property and the periodicity law (R118, R121): with no listener and nothing rewritten, an active
channel's flag, 0 at the start, is set after a sequence of exec steps exactly when at least one step ran and the cycles
accumulated by then reach the target; once set it stays. And when software clears the flag by a `TFLG` write `e` cycles
after the crossing, `0 < e < WRAP`, the next match comes when `WRAP - e` further cycles have elapsed, not before. -/
def Obligations.FlagSetsAtTheCrossing : Prop :=
  ∀ (k : Channel) (s : State), s.Inv → s.quiet → s.cfg.variant = .multichannel → k ∈ activeChannels s.cfg.activeOc →
    (∀ ds : List Word, (∀ j ∈ activeChannels s.cfg.activeOc, s.acc[j] + totalCycles ds ≤ 0x7FFFFFFF) →
      (∀ d ∈ ds, d.toNat < 2 ^ 31) →
      ∃ t, execList (ds.map Instr.tExec) s = .next t ∧ t.acc[k] = s.acc[k] + totalCycles ds ∧
        t.flag k = (s.flag k || (!ds.isEmpty && decide (s.target k ≤ s.acc[k] + totalCycles ds)))) ∧
    (∀ v : Half, v.getLsbD s.cfg.ocBit[k] = false → s.target k < s.acc[k] → s.acc[k] < s.target k + 0x40000 →
      ∃ u, exec (.tflg (.write16 v)) s = .next u ∧ u.acc[k] = s.acc[k] - 0x40000 ∧
        ∀ ds : List Word, (∀ j ∈ activeChannels s.cfg.activeOc, u.acc[j] + totalCycles ds ≤ 0x7FFFFFFF) →
          (∀ d ∈ ds, d.toNat < 2 ^ 31) →
          ∃ t, execList (ds.map Instr.tExec) u = .next t ∧
            (t.flag k = true ↔ (s.acc[k] - s.target k) + totalCycles ds ≥ 0x40000))

/-! ### The clock and periodic timer (`43_clock_pit.md`) -/

/-- R131 and R133 on the default map: the clock formula, exact, with its ratio between 4 and 2048; and the load value of the
periodic timer. -/
def Obligations.ClockAndLoadFormulas : Prop :=
  (∀ s : Half, clockOf Cfg.default s = Cfg.default.extClockHz * clockRatio Cfg.default s ∧
    clockRatio Cfg.default s =
      4 * ((s.extractLsb' 8 6).toNat + 1) * 2 ^ (2 * (s.extractLsb' 15 1).toNat + (s.extractLsb' 14 1).toNat) ∧
    4 ≤ clockRatio Cfg.default s ∧ clockRatio Cfg.default s ≤ 2048 ∧
    clockOf Cfg.default s / Cfg.default.extClockHz = clockRatio Cfg.default s) ∧
  (∀ (c m : Half) (sysclk : Nat),
    pitLoadOf Cfg.default c m sysclk =
      (if c.extractLsb' 8 3 = 0 then 0
        else (((m.extractLsb' 0 8).toNat * (if m.extractLsb' 8 1 = 1 then 512 else 1) * 4 *
          (sysclk / Cfg.default.extClockHz) : Nat) : Int)))

/-- R135 and R136: `S.EXEC`: a disabled timer does nothing; otherwise the count goes down by the elapsed cycles, and where
it reaches zero or below, once, the vector of the control register is raised at the register's level unless it is pending,
and the load value is added. A count below `-2^31` is refused. -/
def Obligations.ClockExecStep : Prop :=
  ∀ (delta : Word) (s : State) (lvl : Level) (vec : Byte) (fires : Bool), s.Inv → s.quiet →
    lvl = picrLevel s.cfg (s.reg16 .sys s.cfg.sPicr) → vec = picrVector s.cfg (s.reg16 .sys s.cfg.sPicr) →
    fires = decide (s.pitCur - delta.toNat ≤ 0) →
    HasWord 0x79 0 delta (.sExec delta) ∧
    (delta.toNat < 2 ^ 31 → s.pitLoad = 0 → exec (.sExec delta) s = .next (s.setResult .none)) ∧
    (delta.toNat < 2 ^ 31 → s.pitLoad ≠ 0 → s.pitCur - delta.toNat < -0x80000000 →
      exec (.sExec delta) s = .refused .i32Range) ∧
    (delta.toNat < 2 ^ 31 → s.pitLoad ≠ 0 → -0x80000000 ≤ s.pitCur - delta.toNat →
      ∃ t, exec (.sExec delta) s = .next t ∧ lvl ≠ 0 ∧
        t.pitCur = s.pitCur - delta.toNat + (if fires then s.pitLoad else 0) ∧
        t.queue[lvl] = (if fires = true ∧ vec ∉ s.queue[lvl] then s.queue[lvl] ++ [vec] else s.queue[lvl]) ∧
        (∀ l : Level, l ≠ lvl → t.queue[l] = s.queue[l]) ∧ t.irq = highest t.queue ∧
        t.out = s.out ++ (if fires = true ∧ vec ∉ s.queue[lvl] then [.irqLine t.irq] else []) ∧
        t = { s with pitCur := t.pitCur, queue := t.queue, irq := t.irq, out := t.out, result := .none })

/-- How often a sequence of `S.EXEC` steps calls `RaisePit`: once per step at which the enabled count reaches zero or
below (R135). -/
def firings : List Word → State → Nat
  | [], _ => 0
  | d :: ds, s =>
    (if s.pitLoad ≠ 0 ∧ s.pitCur - d.toNat ≤ 0 then 1 else 0) +
      match exec (.sExec d) s with
      | .next t => firings ds t
      | _ => 0

/-- R137, the period law: counting from a recompute, with load value `L > 0` and no further recompute, `RaisePit` is called
at most `C div L` times in `C` cycles; if no step is longer than `L`, exactly so often, and the count stays above 0 and
at most `L`, at `L - (C mod L)`. -/
def Obligations.PeriodLaw : Prop :=
  ∀ (ds : List Word) (s : State) (L : Nat), s.Inv → s.quiet → 0 < L → s.pitLoad = L → s.pitCur = L →
    (∀ t, execList (ds.map Instr.sExec) s = .next t → firings ds s ≤ totalCycles ds / L) ∧
    ((∀ d ∈ ds, d.toNat ≤ L) →
      ∃ t, execList (ds.map Instr.sExec) s = .next t ∧ firings ds s = totalCycles ds / L ∧ t.pitLoad = L ∧
        t.pitCur = L - (totalCycles ds % L : Nat) ∧ 0 < t.pitCur ∧ t.pitCur ≤ L)

/-! ### The system operations (`46_integration.md`) -/

/-- R181 (U20) with R194: `EXEC` is the exec steps of the timer, the clock/system module and the serial module, in that
order, and the serial one changes nothing; an operand of `2^31` or more is refused. Where it completes, listeners and all:
when no accumulator of an active channel and no count leaves `i32`. -/
def Obligations.ExecVisitsPeripheralsInOrder : Prop :=
  ∀ (delta : Word) (s : State), HasWord 0x71 0 delta (.sysExec delta) ∧ HasWord 0x7A 0 delta (.qExec delta) ∧
    (2 ^ 31 ≤ delta.toNat → exec (.sysExec delta) s = .refused .i32Range) ∧
    (delta.toNat < 2 ^ 31 → exec (.sysExec delta) s = execList [.tExec delta, .sExec delta, .qExec delta] s) ∧
    exec (.qExec delta) s = .next (s.setResult .none) ∧
    (s.Inv → s.orderly → delta.toNat < 2 ^ 31 →
      (∀ k ∈ activeChannels s.cfg.activeOc, s.acc[k] + delta.toNat ≤ 0x7FFFFFFF) →
      -0x80000000 ≤ s.pitCur - delta.toNat →
      ∃ t1 t, exec (.tExec delta) s = .next t1 ∧ exec (.sExec delta) t1 = .next t ∧ exec (.sysExec delta) s = .next t ∧
        t.cycles = s.cycles ∧ t.cfg = s.cfg ∧ SameStorageBut .timer s.cfg.tTflg 2 s t ∧ t.sysclk = s.sysclk ∧ t.pitLoad = s.pitLoad)

/-- R180 with R187: `STEP` runs the engine's instruction, every operation of it at once on the current state with its result
going to the engine; then `cycles` advances by what the engine reports; then every peripheral does. (While the cycle
counter does not pass its 64 bits; beyond that the spec gives it no value: log entry 8. That the engine's answers stand
in a list of the state is the model's choice: log entry 7.) -/
def Obligations.StepRunsTheEngineThenThePeripherals : Prop :=
  ∀ (s : State) (ops : List EngineOp) (n : Nat) (later : List EngineRun),
    s.engine = ⟨ops, n⟩ :: later → s.cycles.toNat + n < 2 ^ 64 →
    HasWord 0x70 0 0 .sysStep ∧
    (n < 2 ^ 31 → exec .sysStep s =
      andThen (execNested ops { s with engine := later, engineResults := [], result := .none }) fun t =>
        exec (.sysExec (BitVec.ofNat 32 n)) { t with cycles := BitVec.ofNat 64 (s.cycles.toNat + n) }) ∧
    (2 ^ 31 ≤ n → ∀ t, exec .sysStep s ≠ .next t) ∧
    (∀ t, exec .sysStep s = .next t →
      t.cycles.toNat = s.cycles.toNat + n ∧ t.engine = later ∧ t.engineResults.length = ops.length)

/-- An engine operation whose bus accesses are aligned. -/
def EngineAligned : EngineOp → Prop
  | .read16 a | .read32 a | .fetch16 a | .fetch32 a | .write16 a _ | .write32 a _ => a.toNat % 2 = 0
  | .read8 _ | .write8 _ _ | .ack _ | .illegal _ | .resethook | .resetpc | .resetsp => True

/-- Where `STEP` completes (R180, R187: "defined for every finite sequence of nested operations and every `n < 2^31`"):
when the engine's words are aligned, no listener issues a nested step, no load value leaves `i32`, and the accumulators,
the count and the cycle counter have room for the cycles it reports (those an operation of the engine may resynchronise
included). (The engine's answers as data: log entry 7.) -/
def Obligations.StepCompletes : Prop :=
  ∀ (s : State) (ops : List EngineOp) (n : Nat) (later : List EngineRun),
    s.Inv → s.orderly → LoadsFit s.cfg → s.engine = ⟨ops, n⟩ :: later → n < 2 ^ 31 → (ops ≠ [] → n < 2 ^ 31 - 0x40000) →
    s.cycles.toNat + n < 2 ^ 64 → (∀ op ∈ ops, EngineAligned op) →
    (∀ k : Channel, s.acc[k] + n ≤ 0x7FFFFFFF) → -0x80000000 ≤ s.pitCur - n →
    ∃ t, exec .sysStep s = .next t ∧ t.cycles.toNat = s.cycles.toNat + n ∧ t.engineResults.length = ops.length ∧
      (ops = [] → t.engineResults = [] ∧ SameStorageBut .timer s.cfg.tTflg 2 s t)

/-- R182 with R36 and R221: `RESET` completes from every state: the storages take their reset images, the derived fields are
computed from them, everything else is zero or empty, and no event stands. No other operation takes an event back (R34),
and none but `STEP` changes `cycles` (R13). -/
def Obligations.ResetRestoresEveryField : Prop :=
  (∀ (i : Instr) (s t : State), i ≠ .sysReset → exec i s = .next t →
    s.out <+: t.out ∧ (i ≠ .sysStep → t.cycles = s.cycles)) ∧
  ∀ s : State, HasWord 0x72 0 0 .sysReset ∧ ∃ t, exec .sysReset s = .next t ∧
    (∀ (r : Region) (o : Nat), t.byteAt r o = imageByte s.cfg r o) ∧
    (∀ p : Port, (t.port p).data = 0 ∧ (t.port p).writeCounter = 0) ∧
    t.portGp.direction = t.byteAt .timer s.cfg.tDdrgp ∧ t.portGp.enabledPins = 0xFF ∧
    t.portE.direction = t.byteAt .sys s.cfg.sDdre ∧ t.portE.enabledPins = ~~~(t.byteAt .sys s.cfg.sPepar) ∧
    t.portF.direction = t.byteAt .sys s.cfg.sDdrf ∧ t.portF.enabledPins = ~~~(t.byteAt .sys s.cfg.sPfpar) ∧
    t.portQs.direction = 0 ∧ t.portQs.enabledPins = 0xFF ∧
    (∀ k : Channel, t.acc[k] = 0) ∧ t.cycles = 0 ∧
    t.sysclk = clockOf s.cfg (t.reg16 .sys s.cfg.sSyncr) ∧
    t.pitLoad = pitLoadOf s.cfg (t.reg16 .sys s.cfg.sPicr) (t.reg16 .sys s.cfg.sPitr) t.sysclk ∧ t.pitCur = t.pitLoad ∧
    (∀ l : Level, t.queue[l] = []) ∧ t.irq = 0 ∧ t.out = [] ∧ t.prevTcnt = 0

/-- R222 and R36 with the default image, as software sees the state right after reset (read hooks the identity): every
16-bit register reads 0 but the targets, which read all ones; every byte of the windows outside the targets is 0; all
pins are enabled inputs; the periodic timer is off and the system clock is four times the external one. (That the bytes
the source does not mention are zero is the spec's decision D20; log entry 2.) And what `RESET` leaves, since it is no state
of the core (R33): the configuration, the hooks and the environment's lists (the model's choice: log entry 10). -/
def Obligations.SoftwareSeesTheResetValues : Prop :=
  (∀ n : RegName, (n.instr .read16).wf = true → exec (n.instr .read16) State.reset =
    .next (State.reset.setResult (.half (if targetChannel n = none then 0x0000 else 0xFFFF)))) ∧
  (∀ n : RegName, (n.instr .read16).wf = false → exec (n.instr (.read8 false)) State.reset =
    .next (State.reset.setResult (.byte 0x00))) ∧
  (∀ (r : Region) (o : Nat), (r = .timer → o < 0x14 ∨ 0x1C ≤ o) → State.reset.byteAt r o = 0x00) ∧
  (∀ p : Port, State.reset.port p = ⟨0x00, 0xFF, 0x00, 0⟩) ∧ State.reset.pitLoad = 0 ∧ State.reset.pitCur = 0 ∧
  State.reset.sysclk = 4 * Cfg.default.extClockHz ∧ State.reset.out = [] ∧ State.reset.irq = 0 ∧
  (∀ s t : State, exec .sysReset s = .next t → SameEnvironment s t ∧ t.freeCount = s.freeCount ∧ t.result = .none)

/-- R183 to R186: the hooks answer and change no state of the core: the answer of the caller's illegal-instruction policy
(P17) for that opcode; nothing; the reset program counter; the reset stack pointer. -/
def Obligations.HooksAnswerWithoutChangingState : Prop :=
  ∀ (s : State) (op : Half),
    (HasWord 0x73 0 (halfWord op) (.illegal op) ∧ HasWord 0x74 0 0 .resethook ∧ HasWord 0x75 0 0 .resetpc ∧
      HasWord 0x76 0 0 .resetsp) ∧
    exec (.illegal op) s = .next (s.setResult (.action (Config.illegalPolicy op))) ∧
    exec .resethook s = .next (s.setResult .none) ∧
    exec .resetpc s = .next (s.setResult (.word s.cfg.resetPc)) ∧
    exec .resetsp s = .next (s.setResult (.word s.cfg.resetSp))

/-! ### Listeners (`20_memory.md` R54, `70_reset_and_hazards.md` R235) -/

/-- R54: what a listener does at an event takes effect at the point of the event: after what the operation did before it,
before what it does after it. Here for each of the reactions at the event of `P.SETDIR`, and, at the first event of a word
write over a direction and a data register, between the direction and the data. R235 (U11): a listener that issues `STEP`,
`EXEC` or `RESET` from inside an event stops the operation that fired it.
(That the listeners' reactions stand in a list of the state, one entry per event, is the model's choice: log entry 9.) -/
def Obligations.ReactionsActAtTheEvent : Prop :=
  (∀ (s : State) (p q : Port) (m b : Byte) (vec : Byte) (lvl : Level) (h : Hook) (later : List (List Reaction)),
      (s.reactions = [.writeRx q b] :: later →
        exec (.pSetdir p m) s =
          andThen (exec (.pSetdir p m) { s with reactions := [] }) fun t =>
            exec (.pWriterx q b) { t with reactions := later }) ∧
      (s.reactions = [.inject vec lvl] :: later →
        exec (.pSetdir p m) s =
          andThen (exec (.pSetdir p m) { s with reactions := [] }) fun t =>
            exec (.inject vec lvl) { t with reactions := later }) ∧
      (s.reactions = [.replaceHook q h] :: later →
        exec (.pSetdir p m) s =
          andThen (exec (.pSetdir p m) { s with reactions := [] }) fun t =>
            .next ({ t with reactions := later }.setHook q h)) ∧
      (∀ (r : Region) (addr : Word) (v : Half) (o : Nat), s.Inv → o = addr.toNat - regionBase s.cfg r →
        Claims s.cfg r addr.toNat → Claims s.cfg r (addr.toNat + 1) → addr.toNat % 2 = 0 →
        regAt s.cfg r o = some (.dir p) → regAt s.cfg r (o + 1) = some (.data p) →
        s.reactions = [[.writeRx q b]] →
        exec (w16Of r addr v) s =
          execList [.pSetdir p (v.extractLsb' 8 8), .pWriterx q b, .pWritetx p (v.extractLsb' 0 8)]
            { s.setReg16 r o v with reactions := [] })) ∧
  (∀ (s : State) (r : Reaction) (rs : List Reaction) (later : List (List Reaction)) (p : Port) (b vec : Byte) (lvl : Level),
      r.external = false → s.reactions = (r :: rs) :: later →
      exec (.pSetdir p b) s = .refused .nestedStep ∧ exec (.pWritetx p b) s = .refused .nestedStep ∧
      exec (.inject vec lvl) s = .refused .nestedStep ∧
      (s.queue[lvl] ≠ [] → exec (.ack lvl) s = .refused .nestedStep))

/-! ### What the spec's own inferences, and the model, say of the edges -/

/-- The edges of the domain, none of them a rule of its own. The spec infers (R88, R176, R133): no bus operation leaves the
window it is routed to, and on the default map no register value takes the load value past 1069547520. The model infers
(DEDUCED): an exec step of `2^31` cycles or more, outside the range R119 and R135 give it, is refused (log entry 11); so is
a register write whose load value is no `i32` (R8 (d); log entry 14). And it names an odd address before one outside the
region (DESIGN CHOICE: log entry 15). -/
def Obligations.EdgesOfTheDomain : Prop :=
  (∀ (s : State) (addr : Word) (v8 : Byte) (v16 : Half) (v32 : Word),
    ∀ i ∈ [Instr.read8 addr, .read16 addr, .read32 addr, .fetch16 addr, .fetch32 addr, .write8 addr v8,
      .write16 addr v16, .write32 addr v32], exec i s ≠ .refused .outOfRange) ∧
  (∀ (c : Cfg) (r : Region) (a : Nat), c.WF → a % 2 = 0 → Claims c r a → Claims c r (a + 1)) ∧
  (∀ c m y : Half, pitLoadOf Cfg.default c m (clockOf Cfg.default y) ≤ 1069547520) ∧ LoadsFit Cfg.default ∧
  (∀ (delta : Word) (s : State), 2 ^ 31 ≤ delta.toNat →
    exec (.tExec delta) s = .refused .i32Range ∧ exec (.sExec delta) s = .refused .i32Range) ∧
  (∀ (n : RegName) (acc : RegAccess) (s u : State) (x : Nat), (n = .syncr ∨ n = .picr ∨ n = .pitr) → s.Inv →
    namedAt s.cfg n = (.sys, x) →
    (∃ v, acc = .write16 v ∧ u = s.setReg16 .sys x v) ∨
      (∃ lo v, acc = .write8 lo v ∧ u = s.setByte .sys (x + lo.toNat) v) →
    pitLoadOf s.cfg (u.reg16 .sys s.cfg.sPicr) (u.reg16 .sys s.cfg.sPitr) (clockOf s.cfg (u.reg16 .sys s.cfg.sSyncr)) >
      0x7FFFFFFF →
    exec (n.instr acc) s = .refused .i32Range) ∧
  (∀ (s : State) (r : Region) (addr : Word) (v : Half), addr.toNat % 2 = 1 →
    exec (r16Of r addr) s = .refused .misaligned ∧ exec (w16Of r addr v) s = .refused .misaligned)

end
end

