-- ==== Sys2Proof/Laws/Memory.lean ====
section
/-! SUPPORT. Laws/Memory.lean: the laws of one storage: what a write leaves to read, that it keeps the canonical form, and
that two canonical storages that read alike are equal. -/

namespace Sys2Proof.Machine

@[simp] theorem memRead_nil (d : Nat → Byte) (a : Nat) : memRead d [] a = d a := rfl

theorem memRead_cons (d : Nat → Byte) (c : Host.Cell) (m : List Host.Cell) (a : Nat) :
    memRead d (c :: m) a = if a = c.1 then c.2 else memRead d m a := rfl

/-- Below every listed offset a storage reads as the image. -/
theorem memRead_below {d : Nat → Byte} {m : List Host.Cell} {a : Nat} (h : ∀ c ∈ m, a < c.1) : memRead d m a = d a := by
  induction m with
  | nil => rfl
  | cons c m ih =>
    have hc := h c (by simp)
    rw [memRead_cons, if_neg (by omega), ih fun c' h' => h c' (by simp [h'])]

/-- Read after write: the byte written at the offset written, every other byte as before. -/
theorem memRead_memWrite {d : Nat → Byte} {m : List Host.Cell} (hm : m.Pairwise (·.1 < ·.1)) (a x : Nat) (b : Byte) :
    memRead d (memWrite d m a b) x = if x = a then b else memRead d m x := by
  induction m with
  | nil =>
    by_cases hb : b = d a
    · by_cases hx : x = a <;> simp [memWrite, hb, hx]
    · by_cases hx : x = a <;> simp [memWrite, hb, hx, memRead_cons]
  | cons c m ih =>
    obtain ⟨y, v⟩ := c
    have ih := ih hm.of_cons
    have hrest : ∀ c ∈ m, y < c.1 := fun c hc => List.rel_of_pairwise_cons hm hc
    by_cases h1 : a < y
    · by_cases hb : b = d a
      · by_cases hx : x = a
        · subst hx
          simp [memWrite, h1, hb, memRead_cons, Nat.ne_of_lt h1, memRead_below fun c hc => h1.trans (hrest c hc)]
        · simp [memWrite, h1, hb, hx]
      · by_cases hx : x = a <;> simp [memWrite, h1, hb, hx, memRead_cons]
    · by_cases h2 : a = y
      · subst h2
        by_cases hb : b = d a
        · by_cases hx : x = a
          · subst hx; simp [memWrite, hb, memRead_below hrest]
          · simp [memWrite, hb, hx, memRead_cons]
        · by_cases hx : x = a <;> simp [memWrite, hb, hx, memRead_cons]
      · by_cases hx : x = y
        · subst hx; simp [memWrite, h1, h2, memRead_cons, Ne.symm h2]
        · simp [memWrite, h1, h2, memRead_cons, hx, ih]

/-- The offsets listed after a write: the one written and those listed before. -/
theorem mem_memWrite {d : Nat → Byte} {m : List Host.Cell} {a : Nat} {b : Byte} {c : Host.Cell}
    (h : c ∈ memWrite d m a b) : (c = (a, b) ∧ b ≠ d a) ∨ c ∈ m := by
  induction m with
  | nil => by_cases hb : b = d a <;> simp_all [memWrite]
  | cons e m ih =>
    obtain ⟨y, v⟩ := e
    rw [memWrite] at h
    split at h
    · split at h
      · exact .inr h
      · rename_i hb; rcases List.mem_cons.mp h with h | h
        · exact .inl ⟨h, hb⟩
        · exact .inr h
    · split at h
      · split at h
        · exact .inr (List.mem_cons_of_mem _ h)
        · rename_i hb; rcases List.mem_cons.mp h with h | h
          · exact .inl ⟨h, hb⟩
          · exact .inr (List.mem_cons_of_mem _ h)
      · rcases List.mem_cons.mp h with h | h
        · exact .inr (by simp [h])
        · rcases ih h with h | h
          · exact .inl h
          · exact .inr (List.mem_cons_of_mem _ h)

theorem memWrite_sorted {d : Nat → Byte} {m : List Host.Cell} (hm : m.Pairwise (·.1 < ·.1)) (a : Nat) (b : Byte) :
    (memWrite d m a b).Pairwise (·.1 < ·.1) := by
  induction m with
  | nil => by_cases hb : b = d a <;> simp [memWrite, hb]
  | cons e m ih =>
    obtain ⟨y, v⟩ := e
    have hrest : ∀ c ∈ m, y < c.1 := fun c hc => List.rel_of_pairwise_cons hm hc
    rw [memWrite]
    split
    · rename_i h1
      split
      · exact hm
      · refine List.pairwise_cons.mpr ⟨fun c hc => ?_, hm⟩
        rcases List.mem_cons.mp hc with rfl | hc
        · exact h1
        · exact h1.trans (hrest c hc)
    · split
      · rename_i h1 h2
        subst h2
        split
        · exact hm.of_cons
        · exact List.pairwise_cons.mpr ⟨hrest, hm.of_cons⟩
      · rename_i h1 h2
        refine List.pairwise_cons.mpr ⟨fun c hc => ?_, ih hm.of_cons⟩
        rcases mem_memWrite hc with ⟨rfl, _⟩ | hc
        · change y < a; omega
        · exact hrest c hc

/-- A write inside the window keeps the canonical form. -/
theorem memWrite_wf {d : Nat → Byte} {size : Nat} {m : List Host.Cell} (hm : Memory.wf d size m) {a : Nat}
    (ha : a < size) (b : Byte) : Memory.wf d size (memWrite d m a b) := by
  refine ⟨memWrite_sorted hm.1 a b, fun c hc => ?_⟩
  rcases mem_memWrite hc with ⟨rfl, hb⟩ | hc
  · exact ⟨ha, hb⟩
  · exact hm.2 c hc

theorem memory_nil_wf (d : Nat → Byte) (size : Nat) : Memory.wf d size [] := ⟨List.Pairwise.nil, by simp⟩

/-- Canonical storages that read alike at every offset are equal: the form is canonical. -/
theorem memory_ext {d : Nat → Byte} {size : Nat} {m n : List Host.Cell} (hm : Memory.wf d size m)
    (hn : Memory.wf d size n) (h : ∀ a, memRead d m a = memRead d n a) : m = n := by
  induction m generalizing n with
  | nil =>
    cases n with
    | nil => rfl
    | cons c n => exact absurd (by simpa [memRead_cons] using (h c.1).symm) (hn.2 c (by simp)).2
  | cons c m ih =>
    cases n with
    | nil => exact absurd (by simpa [memRead_cons] using h c.1) (hm.2 c (by simp)).2
    | cons e n =>
      have hcm : ∀ x ∈ m, c.1 < x.1 := fun x hx => List.rel_of_pairwise_cons hm.1 hx
      have hen : ∀ x ∈ n, e.1 < x.1 := fun x hx => List.rel_of_pairwise_cons hn.1 hx
      have hc : c.2 = memRead d (e :: n) c.1 := by rw [← h]; simp [memRead_cons]
      have he : e.2 = memRead d (c :: m) e.1 := by rw [h]; simp [memRead_cons]
      have hne_c := (hm.2 c (by simp)).2
      have hne_e := (hn.2 e (by simp)).2
      have hkey : c.1 = e.1 := by
        rcases Nat.lt_trichotomy c.1 e.1 with hlt | heq | hgt
        · refine absurd (hc.trans (memRead_below fun x hx => ?_)) hne_c
          rcases List.mem_cons.mp hx with rfl | hx
          · exact hlt
          · exact hlt.trans (hen x hx)
        · exact heq
        · refine absurd (he.trans (memRead_below fun x hx => ?_)) hne_e
          rcases List.mem_cons.mp hx with rfl | hx
          · exact hgt
          · exact Nat.lt_trans hgt (hcm x hx)
      have hval : c = e := Prod.ext hkey (by simpa [memRead_cons, hkey] using hc)
      subst hval
      refine congrArg (c :: ·) (ih ⟨hm.1.of_cons, fun x hx => hm.2 x (by simp [hx])⟩
        ⟨hn.1.of_cons, fun x hx => hn.2 x (by simp [hx])⟩ fun a => ?_)
      by_cases ha : a = c.1
      · rw [ha, memRead_below hcm, memRead_below hen]
      · simpa [memRead_cons, ha] using h a

end Sys2Proof.Machine
end

