-- ==== Sys2Proof/Laws/State.lean ====
section
/-! SUPPORT. Laws/State.lean: one lemma per field per update of the state, and the accessors of ports, hooks and storages
under each update; so that no later proof unfolds a record update. -/

namespace Sys2Proof.Machine


/-! ### `State.setStor` -/

@[simp] theorem setStor_portGp (s : State) (r : Region) (m : List Host.Cell) : (s.setStor r m).portGp = s.portGp := by cases r <;> rfl
@[simp] theorem setStor_portE (s : State) (r : Region) (m : List Host.Cell) : (s.setStor r m).portE = s.portE := by cases r <;> rfl
@[simp] theorem setStor_portF (s : State) (r : Region) (m : List Host.Cell) : (s.setStor r m).portF = s.portF := by cases r <;> rfl
@[simp] theorem setStor_portQs (s : State) (r : Region) (m : List Host.Cell) : (s.setStor r m).portQs = s.portQs := by cases r <;> rfl
@[simp] theorem setStor_acc (s : State) (r : Region) (m : List Host.Cell) : (s.setStor r m).acc = s.acc := by cases r <;> rfl
@[simp] theorem setStor_cycles (s : State) (r : Region) (m : List Host.Cell) : (s.setStor r m).cycles = s.cycles := by cases r <;> rfl
@[simp] theorem setStor_sysclk (s : State) (r : Region) (m : List Host.Cell) : (s.setStor r m).sysclk = s.sysclk := by cases r <;> rfl
@[simp] theorem setStor_pitLoad (s : State) (r : Region) (m : List Host.Cell) : (s.setStor r m).pitLoad = s.pitLoad := by cases r <;> rfl
@[simp] theorem setStor_pitCur (s : State) (r : Region) (m : List Host.Cell) : (s.setStor r m).pitCur = s.pitCur := by cases r <;> rfl
@[simp] theorem setStor_queue (s : State) (r : Region) (m : List Host.Cell) : (s.setStor r m).queue = s.queue := by cases r <;> rfl
@[simp] theorem setStor_irq (s : State) (r : Region) (m : List Host.Cell) : (s.setStor r m).irq = s.irq := by cases r <;> rfl
@[simp] theorem setStor_out (s : State) (r : Region) (m : List Host.Cell) : (s.setStor r m).out = s.out := by cases r <;> rfl
@[simp] theorem setStor_prevTcnt (s : State) (r : Region) (m : List Host.Cell) : (s.setStor r m).prevTcnt = s.prevTcnt := by cases r <;> rfl
@[simp] theorem setStor_cfg (s : State) (r : Region) (m : List Host.Cell) : (s.setStor r m).cfg = s.cfg := by cases r <;> rfl
@[simp] theorem setStor_hookGp (s : State) (r : Region) (m : List Host.Cell) : (s.setStor r m).hookGp = s.hookGp := by cases r <;> rfl
@[simp] theorem setStor_hookE (s : State) (r : Region) (m : List Host.Cell) : (s.setStor r m).hookE = s.hookE := by cases r <;> rfl
@[simp] theorem setStor_hookF (s : State) (r : Region) (m : List Host.Cell) : (s.setStor r m).hookF = s.hookF := by cases r <;> rfl
@[simp] theorem setStor_hookQs (s : State) (r : Region) (m : List Host.Cell) : (s.setStor r m).hookQs = s.hookQs := by cases r <;> rfl
@[simp] theorem setStor_result (s : State) (r : Region) (m : List Host.Cell) : (s.setStor r m).result = s.result := by cases r <;> rfl
@[simp] theorem setStor_engineResults (s : State) (r : Region) (m : List Host.Cell) : (s.setStor r m).engineResults = s.engineResults := by cases r <;> rfl
@[simp] theorem setStor_requests (s : State) (r : Region) (m : List Host.Cell) : (s.setStor r m).requests = s.requests := by cases r <;> rfl
@[simp] theorem setStor_engine (s : State) (r : Region) (m : List Host.Cell) : (s.setStor r m).engine = s.engine := by cases r <;> rfl
@[simp] theorem setStor_reactions (s : State) (r : Region) (m : List Host.Cell) : (s.setStor r m).reactions = s.reactions := by cases r <;> rfl
@[simp] theorem setStor_freeCount (s : State) (r : Region) (m : List Host.Cell) : (s.setStor r m).freeCount = s.freeCount := by cases r <;> rfl
@[simp] theorem setStor_port (s : State) (r : Region) (m : List Host.Cell) (p1 : Port) : (s.setStor r m).port p1 = s.port p1 := by cases p1 <;> cases r <;> rfl
@[simp] theorem setStor_hook (s : State) (r : Region) (m : List Host.Cell) (p1 : Port) : (s.setStor r m).hook p1 = s.hook p1 := by cases p1 <;> cases r <;> rfl

/-! ### `State.setPort` -/

@[simp] theorem setPort_storT (s : State) (p : Port) (v : PortState) : (s.setPort p v).storT = s.storT := by cases p <;> rfl
@[simp] theorem setPort_storS (s : State) (p : Port) (v : PortState) : (s.setPort p v).storS = s.storS := by cases p <;> rfl
@[simp] theorem setPort_storQ (s : State) (p : Port) (v : PortState) : (s.setPort p v).storQ = s.storQ := by cases p <;> rfl
@[simp] theorem setPort_acc (s : State) (p : Port) (v : PortState) : (s.setPort p v).acc = s.acc := by cases p <;> rfl
@[simp] theorem setPort_cycles (s : State) (p : Port) (v : PortState) : (s.setPort p v).cycles = s.cycles := by cases p <;> rfl
@[simp] theorem setPort_sysclk (s : State) (p : Port) (v : PortState) : (s.setPort p v).sysclk = s.sysclk := by cases p <;> rfl
@[simp] theorem setPort_pitLoad (s : State) (p : Port) (v : PortState) : (s.setPort p v).pitLoad = s.pitLoad := by cases p <;> rfl
@[simp] theorem setPort_pitCur (s : State) (p : Port) (v : PortState) : (s.setPort p v).pitCur = s.pitCur := by cases p <;> rfl
@[simp] theorem setPort_queue (s : State) (p : Port) (v : PortState) : (s.setPort p v).queue = s.queue := by cases p <;> rfl
@[simp] theorem setPort_irq (s : State) (p : Port) (v : PortState) : (s.setPort p v).irq = s.irq := by cases p <;> rfl
@[simp] theorem setPort_out (s : State) (p : Port) (v : PortState) : (s.setPort p v).out = s.out := by cases p <;> rfl
@[simp] theorem setPort_prevTcnt (s : State) (p : Port) (v : PortState) : (s.setPort p v).prevTcnt = s.prevTcnt := by cases p <;> rfl
@[simp] theorem setPort_cfg (s : State) (p : Port) (v : PortState) : (s.setPort p v).cfg = s.cfg := by cases p <;> rfl
@[simp] theorem setPort_hookGp (s : State) (p : Port) (v : PortState) : (s.setPort p v).hookGp = s.hookGp := by cases p <;> rfl
@[simp] theorem setPort_hookE (s : State) (p : Port) (v : PortState) : (s.setPort p v).hookE = s.hookE := by cases p <;> rfl
@[simp] theorem setPort_hookF (s : State) (p : Port) (v : PortState) : (s.setPort p v).hookF = s.hookF := by cases p <;> rfl
@[simp] theorem setPort_hookQs (s : State) (p : Port) (v : PortState) : (s.setPort p v).hookQs = s.hookQs := by cases p <;> rfl
@[simp] theorem setPort_result (s : State) (p : Port) (v : PortState) : (s.setPort p v).result = s.result := by cases p <;> rfl
@[simp] theorem setPort_engineResults (s : State) (p : Port) (v : PortState) : (s.setPort p v).engineResults = s.engineResults := by cases p <;> rfl
@[simp] theorem setPort_requests (s : State) (p : Port) (v : PortState) : (s.setPort p v).requests = s.requests := by cases p <;> rfl
@[simp] theorem setPort_engine (s : State) (p : Port) (v : PortState) : (s.setPort p v).engine = s.engine := by cases p <;> rfl
@[simp] theorem setPort_reactions (s : State) (p : Port) (v : PortState) : (s.setPort p v).reactions = s.reactions := by cases p <;> rfl
@[simp] theorem setPort_freeCount (s : State) (p : Port) (v : PortState) : (s.setPort p v).freeCount = s.freeCount := by cases p <;> rfl
@[simp] theorem setPort_stor (s : State) (p : Port) (v : PortState) (r1 : Region) : (s.setPort p v).stor r1 = s.stor r1 := by cases r1 <;> cases p <;> rfl
@[simp] theorem setPort_hook (s : State) (p : Port) (v : PortState) (p1 : Port) : (s.setPort p v).hook p1 = s.hook p1 := by cases p1 <;> cases p <;> rfl
@[simp] theorem setPort_byteAt (s : State) (p : Port) (v : PortState) (r1 : Region) (o : Nat) : (s.setPort p v).byteAt r1 o = s.byteAt r1 o := by simp [State.byteAt]
@[simp] theorem setPort_reg16 (s : State) (p : Port) (v : PortState) (r1 : Region) (o : Nat) : (s.setPort p v).reg16 r1 o = s.reg16 r1 o := by simp [State.reg16]

/-! ### `State.setHook` -/

@[simp] theorem setHook_storT (s : State) (p : Port) (h : Hook) : (s.setHook p h).storT = s.storT := by cases p <;> rfl
@[simp] theorem setHook_storS (s : State) (p : Port) (h : Hook) : (s.setHook p h).storS = s.storS := by cases p <;> rfl
@[simp] theorem setHook_storQ (s : State) (p : Port) (h : Hook) : (s.setHook p h).storQ = s.storQ := by cases p <;> rfl
@[simp] theorem setHook_portGp (s : State) (p : Port) (h : Hook) : (s.setHook p h).portGp = s.portGp := by cases p <;> rfl
@[simp] theorem setHook_portE (s : State) (p : Port) (h : Hook) : (s.setHook p h).portE = s.portE := by cases p <;> rfl
@[simp] theorem setHook_portF (s : State) (p : Port) (h : Hook) : (s.setHook p h).portF = s.portF := by cases p <;> rfl
@[simp] theorem setHook_portQs (s : State) (p : Port) (h : Hook) : (s.setHook p h).portQs = s.portQs := by cases p <;> rfl
@[simp] theorem setHook_acc (s : State) (p : Port) (h : Hook) : (s.setHook p h).acc = s.acc := by cases p <;> rfl
@[simp] theorem setHook_cycles (s : State) (p : Port) (h : Hook) : (s.setHook p h).cycles = s.cycles := by cases p <;> rfl
@[simp] theorem setHook_sysclk (s : State) (p : Port) (h : Hook) : (s.setHook p h).sysclk = s.sysclk := by cases p <;> rfl
@[simp] theorem setHook_pitLoad (s : State) (p : Port) (h : Hook) : (s.setHook p h).pitLoad = s.pitLoad := by cases p <;> rfl
@[simp] theorem setHook_pitCur (s : State) (p : Port) (h : Hook) : (s.setHook p h).pitCur = s.pitCur := by cases p <;> rfl
@[simp] theorem setHook_queue (s : State) (p : Port) (h : Hook) : (s.setHook p h).queue = s.queue := by cases p <;> rfl
@[simp] theorem setHook_irq (s : State) (p : Port) (h : Hook) : (s.setHook p h).irq = s.irq := by cases p <;> rfl
@[simp] theorem setHook_out (s : State) (p : Port) (h : Hook) : (s.setHook p h).out = s.out := by cases p <;> rfl
@[simp] theorem setHook_prevTcnt (s : State) (p : Port) (h : Hook) : (s.setHook p h).prevTcnt = s.prevTcnt := by cases p <;> rfl
@[simp] theorem setHook_cfg (s : State) (p : Port) (h : Hook) : (s.setHook p h).cfg = s.cfg := by cases p <;> rfl
@[simp] theorem setHook_result (s : State) (p : Port) (h : Hook) : (s.setHook p h).result = s.result := by cases p <;> rfl
@[simp] theorem setHook_engineResults (s : State) (p : Port) (h : Hook) : (s.setHook p h).engineResults = s.engineResults := by cases p <;> rfl
@[simp] theorem setHook_requests (s : State) (p : Port) (h : Hook) : (s.setHook p h).requests = s.requests := by cases p <;> rfl
@[simp] theorem setHook_engine (s : State) (p : Port) (h : Hook) : (s.setHook p h).engine = s.engine := by cases p <;> rfl
@[simp] theorem setHook_reactions (s : State) (p : Port) (h : Hook) : (s.setHook p h).reactions = s.reactions := by cases p <;> rfl
@[simp] theorem setHook_freeCount (s : State) (p : Port) (h : Hook) : (s.setHook p h).freeCount = s.freeCount := by cases p <;> rfl
@[simp] theorem setHook_stor (s : State) (p : Port) (h : Hook) (r1 : Region) : (s.setHook p h).stor r1 = s.stor r1 := by cases r1 <;> cases p <;> rfl
@[simp] theorem setHook_port (s : State) (p : Port) (h : Hook) (p1 : Port) : (s.setHook p h).port p1 = s.port p1 := by cases p1 <;> cases p <;> rfl
@[simp] theorem setHook_byteAt (s : State) (p : Port) (h : Hook) (r1 : Region) (o : Nat) : (s.setHook p h).byteAt r1 o = s.byteAt r1 o := by simp [State.byteAt]
@[simp] theorem setHook_reg16 (s : State) (p : Port) (h : Hook) (r1 : Region) (o : Nat) : (s.setHook p h).reg16 r1 o = s.reg16 r1 o := by simp [State.reg16]

/-! ### `State.setAcc` -/

@[simp] theorem setAcc_storT (s : State) (k : Channel) (a : Int) : (s.setAcc k a).storT = s.storT := rfl
@[simp] theorem setAcc_storS (s : State) (k : Channel) (a : Int) : (s.setAcc k a).storS = s.storS := rfl
@[simp] theorem setAcc_storQ (s : State) (k : Channel) (a : Int) : (s.setAcc k a).storQ = s.storQ := rfl
@[simp] theorem setAcc_portGp (s : State) (k : Channel) (a : Int) : (s.setAcc k a).portGp = s.portGp := rfl
@[simp] theorem setAcc_portE (s : State) (k : Channel) (a : Int) : (s.setAcc k a).portE = s.portE := rfl
@[simp] theorem setAcc_portF (s : State) (k : Channel) (a : Int) : (s.setAcc k a).portF = s.portF := rfl
@[simp] theorem setAcc_portQs (s : State) (k : Channel) (a : Int) : (s.setAcc k a).portQs = s.portQs := rfl
@[simp] theorem setAcc_cycles (s : State) (k : Channel) (a : Int) : (s.setAcc k a).cycles = s.cycles := rfl
@[simp] theorem setAcc_sysclk (s : State) (k : Channel) (a : Int) : (s.setAcc k a).sysclk = s.sysclk := rfl
@[simp] theorem setAcc_pitLoad (s : State) (k : Channel) (a : Int) : (s.setAcc k a).pitLoad = s.pitLoad := rfl
@[simp] theorem setAcc_pitCur (s : State) (k : Channel) (a : Int) : (s.setAcc k a).pitCur = s.pitCur := rfl
@[simp] theorem setAcc_queue (s : State) (k : Channel) (a : Int) : (s.setAcc k a).queue = s.queue := rfl
@[simp] theorem setAcc_irq (s : State) (k : Channel) (a : Int) : (s.setAcc k a).irq = s.irq := rfl
@[simp] theorem setAcc_out (s : State) (k : Channel) (a : Int) : (s.setAcc k a).out = s.out := rfl
@[simp] theorem setAcc_prevTcnt (s : State) (k : Channel) (a : Int) : (s.setAcc k a).prevTcnt = s.prevTcnt := rfl
@[simp] theorem setAcc_cfg (s : State) (k : Channel) (a : Int) : (s.setAcc k a).cfg = s.cfg := rfl
@[simp] theorem setAcc_hookGp (s : State) (k : Channel) (a : Int) : (s.setAcc k a).hookGp = s.hookGp := rfl
@[simp] theorem setAcc_hookE (s : State) (k : Channel) (a : Int) : (s.setAcc k a).hookE = s.hookE := rfl
@[simp] theorem setAcc_hookF (s : State) (k : Channel) (a : Int) : (s.setAcc k a).hookF = s.hookF := rfl
@[simp] theorem setAcc_hookQs (s : State) (k : Channel) (a : Int) : (s.setAcc k a).hookQs = s.hookQs := rfl
@[simp] theorem setAcc_result (s : State) (k : Channel) (a : Int) : (s.setAcc k a).result = s.result := rfl
@[simp] theorem setAcc_engineResults (s : State) (k : Channel) (a : Int) : (s.setAcc k a).engineResults = s.engineResults := rfl
@[simp] theorem setAcc_requests (s : State) (k : Channel) (a : Int) : (s.setAcc k a).requests = s.requests := rfl
@[simp] theorem setAcc_engine (s : State) (k : Channel) (a : Int) : (s.setAcc k a).engine = s.engine := rfl
@[simp] theorem setAcc_reactions (s : State) (k : Channel) (a : Int) : (s.setAcc k a).reactions = s.reactions := rfl
@[simp] theorem setAcc_freeCount (s : State) (k : Channel) (a : Int) : (s.setAcc k a).freeCount = s.freeCount := rfl
@[simp] theorem setAcc_acc (s : State) (k : Channel) (a : Int) : (s.setAcc k a).acc = s.acc.set k a := rfl
@[simp] theorem setAcc_stor (s : State) (k : Channel) (a : Int) (r1 : Region) : (s.setAcc k a).stor r1 = s.stor r1 := by cases r1 <;> rfl
@[simp] theorem setAcc_port (s : State) (k : Channel) (a : Int) (p1 : Port) : (s.setAcc k a).port p1 = s.port p1 := by cases p1 <;> rfl
@[simp] theorem setAcc_hook (s : State) (k : Channel) (a : Int) (p1 : Port) : (s.setAcc k a).hook p1 = s.hook p1 := by cases p1 <;> rfl
@[simp] theorem setAcc_byteAt (s : State) (k : Channel) (a : Int) (r1 : Region) (o : Nat) : (s.setAcc k a).byteAt r1 o = s.byteAt r1 o := by simp [State.byteAt]
@[simp] theorem setAcc_reg16 (s : State) (k : Channel) (a : Int) (r1 : Region) (o : Nat) : (s.setAcc k a).reg16 r1 o = s.reg16 r1 o := by simp [State.reg16]

/-! ### `State.setQueue` -/

@[simp] theorem setQueue_storT (s : State) (l : Level) (q : List Byte) : (s.setQueue l q).storT = s.storT := rfl
@[simp] theorem setQueue_storS (s : State) (l : Level) (q : List Byte) : (s.setQueue l q).storS = s.storS := rfl
@[simp] theorem setQueue_storQ (s : State) (l : Level) (q : List Byte) : (s.setQueue l q).storQ = s.storQ := rfl
@[simp] theorem setQueue_portGp (s : State) (l : Level) (q : List Byte) : (s.setQueue l q).portGp = s.portGp := rfl
@[simp] theorem setQueue_portE (s : State) (l : Level) (q : List Byte) : (s.setQueue l q).portE = s.portE := rfl
@[simp] theorem setQueue_portF (s : State) (l : Level) (q : List Byte) : (s.setQueue l q).portF = s.portF := rfl
@[simp] theorem setQueue_portQs (s : State) (l : Level) (q : List Byte) : (s.setQueue l q).portQs = s.portQs := rfl
@[simp] theorem setQueue_acc (s : State) (l : Level) (q : List Byte) : (s.setQueue l q).acc = s.acc := rfl
@[simp] theorem setQueue_cycles (s : State) (l : Level) (q : List Byte) : (s.setQueue l q).cycles = s.cycles := rfl
@[simp] theorem setQueue_sysclk (s : State) (l : Level) (q : List Byte) : (s.setQueue l q).sysclk = s.sysclk := rfl
@[simp] theorem setQueue_pitLoad (s : State) (l : Level) (q : List Byte) : (s.setQueue l q).pitLoad = s.pitLoad := rfl
@[simp] theorem setQueue_pitCur (s : State) (l : Level) (q : List Byte) : (s.setQueue l q).pitCur = s.pitCur := rfl
@[simp] theorem setQueue_irq (s : State) (l : Level) (q : List Byte) : (s.setQueue l q).irq = s.irq := rfl
@[simp] theorem setQueue_out (s : State) (l : Level) (q : List Byte) : (s.setQueue l q).out = s.out := rfl
@[simp] theorem setQueue_prevTcnt (s : State) (l : Level) (q : List Byte) : (s.setQueue l q).prevTcnt = s.prevTcnt := rfl
@[simp] theorem setQueue_cfg (s : State) (l : Level) (q : List Byte) : (s.setQueue l q).cfg = s.cfg := rfl
@[simp] theorem setQueue_hookGp (s : State) (l : Level) (q : List Byte) : (s.setQueue l q).hookGp = s.hookGp := rfl
@[simp] theorem setQueue_hookE (s : State) (l : Level) (q : List Byte) : (s.setQueue l q).hookE = s.hookE := rfl
@[simp] theorem setQueue_hookF (s : State) (l : Level) (q : List Byte) : (s.setQueue l q).hookF = s.hookF := rfl
@[simp] theorem setQueue_hookQs (s : State) (l : Level) (q : List Byte) : (s.setQueue l q).hookQs = s.hookQs := rfl
@[simp] theorem setQueue_result (s : State) (l : Level) (q : List Byte) : (s.setQueue l q).result = s.result := rfl
@[simp] theorem setQueue_engineResults (s : State) (l : Level) (q : List Byte) : (s.setQueue l q).engineResults = s.engineResults := rfl
@[simp] theorem setQueue_requests (s : State) (l : Level) (q : List Byte) : (s.setQueue l q).requests = s.requests := rfl
@[simp] theorem setQueue_engine (s : State) (l : Level) (q : List Byte) : (s.setQueue l q).engine = s.engine := rfl
@[simp] theorem setQueue_reactions (s : State) (l : Level) (q : List Byte) : (s.setQueue l q).reactions = s.reactions := rfl
@[simp] theorem setQueue_freeCount (s : State) (l : Level) (q : List Byte) : (s.setQueue l q).freeCount = s.freeCount := rfl
@[simp] theorem setQueue_queue (s : State) (l : Level) (q : List Byte) : (s.setQueue l q).queue = s.queue.set l q := rfl
@[simp] theorem setQueue_stor (s : State) (l : Level) (q : List Byte) (r1 : Region) : (s.setQueue l q).stor r1 = s.stor r1 := by cases r1 <;> rfl
@[simp] theorem setQueue_port (s : State) (l : Level) (q : List Byte) (p1 : Port) : (s.setQueue l q).port p1 = s.port p1 := by cases p1 <;> rfl
@[simp] theorem setQueue_hook (s : State) (l : Level) (q : List Byte) (p1 : Port) : (s.setQueue l q).hook p1 = s.hook p1 := by cases p1 <;> rfl
@[simp] theorem setQueue_byteAt (s : State) (l : Level) (q : List Byte) (r1 : Region) (o : Nat) : (s.setQueue l q).byteAt r1 o = s.byteAt r1 o := by simp [State.byteAt]
@[simp] theorem setQueue_reg16 (s : State) (l : Level) (q : List Byte) (r1 : Region) (o : Nat) : (s.setQueue l q).reg16 r1 o = s.reg16 r1 o := by simp [State.reg16]

/-! ### `State.setIrq` -/

@[simp] theorem setIrq_storT (s : State) (l : Level) : (s.setIrq l).storT = s.storT := rfl
@[simp] theorem setIrq_storS (s : State) (l : Level) : (s.setIrq l).storS = s.storS := rfl
@[simp] theorem setIrq_storQ (s : State) (l : Level) : (s.setIrq l).storQ = s.storQ := rfl
@[simp] theorem setIrq_portGp (s : State) (l : Level) : (s.setIrq l).portGp = s.portGp := rfl
@[simp] theorem setIrq_portE (s : State) (l : Level) : (s.setIrq l).portE = s.portE := rfl
@[simp] theorem setIrq_portF (s : State) (l : Level) : (s.setIrq l).portF = s.portF := rfl
@[simp] theorem setIrq_portQs (s : State) (l : Level) : (s.setIrq l).portQs = s.portQs := rfl
@[simp] theorem setIrq_acc (s : State) (l : Level) : (s.setIrq l).acc = s.acc := rfl
@[simp] theorem setIrq_cycles (s : State) (l : Level) : (s.setIrq l).cycles = s.cycles := rfl
@[simp] theorem setIrq_sysclk (s : State) (l : Level) : (s.setIrq l).sysclk = s.sysclk := rfl
@[simp] theorem setIrq_pitLoad (s : State) (l : Level) : (s.setIrq l).pitLoad = s.pitLoad := rfl
@[simp] theorem setIrq_pitCur (s : State) (l : Level) : (s.setIrq l).pitCur = s.pitCur := rfl
@[simp] theorem setIrq_queue (s : State) (l : Level) : (s.setIrq l).queue = s.queue := rfl
@[simp] theorem setIrq_out (s : State) (l : Level) : (s.setIrq l).out = s.out := rfl
@[simp] theorem setIrq_prevTcnt (s : State) (l : Level) : (s.setIrq l).prevTcnt = s.prevTcnt := rfl
@[simp] theorem setIrq_cfg (s : State) (l : Level) : (s.setIrq l).cfg = s.cfg := rfl
@[simp] theorem setIrq_hookGp (s : State) (l : Level) : (s.setIrq l).hookGp = s.hookGp := rfl
@[simp] theorem setIrq_hookE (s : State) (l : Level) : (s.setIrq l).hookE = s.hookE := rfl
@[simp] theorem setIrq_hookF (s : State) (l : Level) : (s.setIrq l).hookF = s.hookF := rfl
@[simp] theorem setIrq_hookQs (s : State) (l : Level) : (s.setIrq l).hookQs = s.hookQs := rfl
@[simp] theorem setIrq_result (s : State) (l : Level) : (s.setIrq l).result = s.result := rfl
@[simp] theorem setIrq_engineResults (s : State) (l : Level) : (s.setIrq l).engineResults = s.engineResults := rfl
@[simp] theorem setIrq_requests (s : State) (l : Level) : (s.setIrq l).requests = s.requests := rfl
@[simp] theorem setIrq_engine (s : State) (l : Level) : (s.setIrq l).engine = s.engine := rfl
@[simp] theorem setIrq_reactions (s : State) (l : Level) : (s.setIrq l).reactions = s.reactions := rfl
@[simp] theorem setIrq_freeCount (s : State) (l : Level) : (s.setIrq l).freeCount = s.freeCount := rfl
@[simp] theorem setIrq_irq (s : State) (l : Level) : (s.setIrq l).irq = l := rfl
@[simp] theorem setIrq_stor (s : State) (l : Level) (r1 : Region) : (s.setIrq l).stor r1 = s.stor r1 := by cases r1 <;> rfl
@[simp] theorem setIrq_port (s : State) (l : Level) (p1 : Port) : (s.setIrq l).port p1 = s.port p1 := by cases p1 <;> rfl
@[simp] theorem setIrq_hook (s : State) (l : Level) (p1 : Port) : (s.setIrq l).hook p1 = s.hook p1 := by cases p1 <;> rfl
@[simp] theorem setIrq_byteAt (s : State) (l : Level) (r1 : Region) (o : Nat) : (s.setIrq l).byteAt r1 o = s.byteAt r1 o := by simp [State.byteAt]
@[simp] theorem setIrq_reg16 (s : State) (l : Level) (r1 : Region) (o : Nat) : (s.setIrq l).reg16 r1 o = s.reg16 r1 o := by simp [State.reg16]

/-! ### `State.log` -/

@[simp] theorem log_storT (s : State) (e : Event) : (s.log e).storT = s.storT := rfl
@[simp] theorem log_storS (s : State) (e : Event) : (s.log e).storS = s.storS := rfl
@[simp] theorem log_storQ (s : State) (e : Event) : (s.log e).storQ = s.storQ := rfl
@[simp] theorem log_portGp (s : State) (e : Event) : (s.log e).portGp = s.portGp := rfl
@[simp] theorem log_portE (s : State) (e : Event) : (s.log e).portE = s.portE := rfl
@[simp] theorem log_portF (s : State) (e : Event) : (s.log e).portF = s.portF := rfl
@[simp] theorem log_portQs (s : State) (e : Event) : (s.log e).portQs = s.portQs := rfl
@[simp] theorem log_acc (s : State) (e : Event) : (s.log e).acc = s.acc := rfl
@[simp] theorem log_cycles (s : State) (e : Event) : (s.log e).cycles = s.cycles := rfl
@[simp] theorem log_sysclk (s : State) (e : Event) : (s.log e).sysclk = s.sysclk := rfl
@[simp] theorem log_pitLoad (s : State) (e : Event) : (s.log e).pitLoad = s.pitLoad := rfl
@[simp] theorem log_pitCur (s : State) (e : Event) : (s.log e).pitCur = s.pitCur := rfl
@[simp] theorem log_queue (s : State) (e : Event) : (s.log e).queue = s.queue := rfl
@[simp] theorem log_irq (s : State) (e : Event) : (s.log e).irq = s.irq := rfl
@[simp] theorem log_prevTcnt (s : State) (e : Event) : (s.log e).prevTcnt = s.prevTcnt := rfl
@[simp] theorem log_cfg (s : State) (e : Event) : (s.log e).cfg = s.cfg := rfl
@[simp] theorem log_hookGp (s : State) (e : Event) : (s.log e).hookGp = s.hookGp := rfl
@[simp] theorem log_hookE (s : State) (e : Event) : (s.log e).hookE = s.hookE := rfl
@[simp] theorem log_hookF (s : State) (e : Event) : (s.log e).hookF = s.hookF := rfl
@[simp] theorem log_hookQs (s : State) (e : Event) : (s.log e).hookQs = s.hookQs := rfl
@[simp] theorem log_result (s : State) (e : Event) : (s.log e).result = s.result := rfl
@[simp] theorem log_engineResults (s : State) (e : Event) : (s.log e).engineResults = s.engineResults := rfl
@[simp] theorem log_requests (s : State) (e : Event) : (s.log e).requests = s.requests := rfl
@[simp] theorem log_engine (s : State) (e : Event) : (s.log e).engine = s.engine := rfl
@[simp] theorem log_reactions (s : State) (e : Event) : (s.log e).reactions = s.reactions := rfl
@[simp] theorem log_freeCount (s : State) (e : Event) : (s.log e).freeCount = s.freeCount := rfl
@[simp] theorem log_out (s : State) (e : Event) : (s.log e).out = s.out ++ [e] := rfl
@[simp] theorem log_stor (s : State) (e : Event) (r1 : Region) : (s.log e).stor r1 = s.stor r1 := by cases r1 <;> rfl
@[simp] theorem log_port (s : State) (e : Event) (p1 : Port) : (s.log e).port p1 = s.port p1 := by cases p1 <;> rfl
@[simp] theorem log_hook (s : State) (e : Event) (p1 : Port) : (s.log e).hook p1 = s.hook p1 := by cases p1 <;> rfl
@[simp] theorem log_byteAt (s : State) (e : Event) (r1 : Region) (o : Nat) : (s.log e).byteAt r1 o = s.byteAt r1 o := by simp [State.byteAt]
@[simp] theorem log_reg16 (s : State) (e : Event) (r1 : Region) (o : Nat) : (s.log e).reg16 r1 o = s.reg16 r1 o := by simp [State.reg16]

/-! ### `State.setResult` -/

@[simp] theorem setResult_storT (s : State) (r : Result) : (s.setResult r).storT = s.storT := rfl
@[simp] theorem setResult_storS (s : State) (r : Result) : (s.setResult r).storS = s.storS := rfl
@[simp] theorem setResult_storQ (s : State) (r : Result) : (s.setResult r).storQ = s.storQ := rfl
@[simp] theorem setResult_portGp (s : State) (r : Result) : (s.setResult r).portGp = s.portGp := rfl
@[simp] theorem setResult_portE (s : State) (r : Result) : (s.setResult r).portE = s.portE := rfl
@[simp] theorem setResult_portF (s : State) (r : Result) : (s.setResult r).portF = s.portF := rfl
@[simp] theorem setResult_portQs (s : State) (r : Result) : (s.setResult r).portQs = s.portQs := rfl
@[simp] theorem setResult_acc (s : State) (r : Result) : (s.setResult r).acc = s.acc := rfl
@[simp] theorem setResult_cycles (s : State) (r : Result) : (s.setResult r).cycles = s.cycles := rfl
@[simp] theorem setResult_sysclk (s : State) (r : Result) : (s.setResult r).sysclk = s.sysclk := rfl
@[simp] theorem setResult_pitLoad (s : State) (r : Result) : (s.setResult r).pitLoad = s.pitLoad := rfl
@[simp] theorem setResult_pitCur (s : State) (r : Result) : (s.setResult r).pitCur = s.pitCur := rfl
@[simp] theorem setResult_queue (s : State) (r : Result) : (s.setResult r).queue = s.queue := rfl
@[simp] theorem setResult_irq (s : State) (r : Result) : (s.setResult r).irq = s.irq := rfl
@[simp] theorem setResult_out (s : State) (r : Result) : (s.setResult r).out = s.out := rfl
@[simp] theorem setResult_prevTcnt (s : State) (r : Result) : (s.setResult r).prevTcnt = s.prevTcnt := rfl
@[simp] theorem setResult_cfg (s : State) (r : Result) : (s.setResult r).cfg = s.cfg := rfl
@[simp] theorem setResult_hookGp (s : State) (r : Result) : (s.setResult r).hookGp = s.hookGp := rfl
@[simp] theorem setResult_hookE (s : State) (r : Result) : (s.setResult r).hookE = s.hookE := rfl
@[simp] theorem setResult_hookF (s : State) (r : Result) : (s.setResult r).hookF = s.hookF := rfl
@[simp] theorem setResult_hookQs (s : State) (r : Result) : (s.setResult r).hookQs = s.hookQs := rfl
@[simp] theorem setResult_engineResults (s : State) (r : Result) : (s.setResult r).engineResults = s.engineResults := rfl
@[simp] theorem setResult_requests (s : State) (r : Result) : (s.setResult r).requests = s.requests := rfl
@[simp] theorem setResult_engine (s : State) (r : Result) : (s.setResult r).engine = s.engine := rfl
@[simp] theorem setResult_reactions (s : State) (r : Result) : (s.setResult r).reactions = s.reactions := rfl
@[simp] theorem setResult_freeCount (s : State) (r : Result) : (s.setResult r).freeCount = s.freeCount := rfl
@[simp] theorem setResult_result (s : State) (r : Result) : (s.setResult r).result = r := rfl
@[simp] theorem setResult_stor (s : State) (r : Result) (r1 : Region) : (s.setResult r).stor r1 = s.stor r1 := by cases r1 <;> rfl
@[simp] theorem setResult_port (s : State) (r : Result) (p1 : Port) : (s.setResult r).port p1 = s.port p1 := by cases p1 <;> rfl
@[simp] theorem setResult_hook (s : State) (r : Result) (p1 : Port) : (s.setResult r).hook p1 = s.hook p1 := by cases p1 <;> rfl
@[simp] theorem setResult_byteAt (s : State) (r : Result) (r1 : Region) (o : Nat) : (s.setResult r).byteAt r1 o = s.byteAt r1 o := by simp [State.byteAt]
@[simp] theorem setResult_reg16 (s : State) (r : Result) (r1 : Region) (o : Nat) : (s.setResult r).reg16 r1 o = s.reg16 r1 o := by simp [State.reg16]

/-- What an update of one of them leaves to read. -/
@[simp] theorem setStor_stor (s : State) (p q : Region) (m : List Host.Cell) : (s.setStor p m).stor q = if q = p then m else s.stor q := by
  cases p <;> cases q <;> rfl


/-- What an update of one of them leaves to read. -/
@[simp] theorem setPort_port (s : State) (p q : Port) (v : PortState) : (s.setPort p v).port q = if q = p then v else s.port q := by
  cases p <;> cases q <;> rfl


/-- What an update of one of them leaves to read. -/
@[simp] theorem setHook_hook (s : State) (p q : Port) (h : Hook) : (s.setHook p h).hook q = if q = p then h else s.hook q := by
  cases p <;> cases q <;> rfl

end Sys2Proof.Machine
end

