-- ==== Sys2Proof/Laws/Storage.lean ====
section
/-! SUPPORT. Laws/Storage.lean: byte order, and what storing bytes and registers leaves to read. -/

namespace Sys2Proof.Machine

/-! ### Byte order -/

/-- The high part of a concatenation. -/
theorem extract_append_high {m n : Nat} (x : BitVec m) (y : BitVec n) : (x ++ y).extractLsb' n m = x := by
  ext i hi
  simp [BitVec.getLsbD_append, BitVec.getLsbD_eq_getElem hi]

/-- The low part of a concatenation. -/
theorem extract_append_low {m n : Nat} (x : BitVec m) (y : BitVec n) : (x ++ y).extractLsb' 0 n = y := by
  ext i hi
  simp [BitVec.getLsbD_append, hi, BitVec.getLsbD_eq_getElem hi]

/-- A value is its two parts. -/
theorem append_extract {m n : Nat} (v : BitVec (m + n)) : v.extractLsb' n m ++ v.extractLsb' 0 n = v := by
  ext i hi
  simp only [BitVec.getElem_append, BitVec.getElem_extractLsb']
  split
  · simp [BitVec.getLsbD_eq_getElem hi]
  · rw [Nat.add_sub_cancel' (by omega)]; simp [BitVec.getLsbD_eq_getElem hi]

@[simp] theorem hiByte_joinBytes (a b : Byte) : hiByte (joinBytes a b) = a := extract_append_high a b
@[simp] theorem loByte_joinBytes (a b : Byte) : loByte (joinBytes a b) = b := extract_append_low a b
@[simp] theorem joinBytes_bytes (v : Half) : joinBytes (hiByte v) (loByte v) = v := append_extract (m := 8) (n := 8) v
@[simp] theorem hiHalf_joinHalves (a b : Half) : hiHalf (joinHalves a b) = a := extract_append_high a b
@[simp] theorem loHalf_joinHalves (a b : Half) : loHalf (joinHalves a b) = b := extract_append_low a b
@[simp] theorem joinHalves_halves (v : Word) : joinHalves (hiHalf v) (loHalf v) = v :=
  append_extract (m := 16) (n := 16) v

/-! ### One byte -/

@[simp] theorem setByte_cfg (s : State) (r : Region) (o : Nat) (b : Byte) : (s.setByte r o b).cfg = s.cfg := by
  simp [State.setByte]

/-- A region's storage is listed in rising order. -/
abbrev State.sorted (s : State) (r : Region) : Prop := (s.stor r).Pairwise (·.1 < ·.1)

theorem setByte_sorted {s : State} {r1 : Region} (h : s.sorted r1) (r : Region) (o : Nat) (b : Byte) :
    (s.setByte r o b).sorted r1 := by
  unfold State.sorted State.setByte
  rw [setStor_stor]
  split
  · rename_i he; subst he; exact memWrite_sorted h o b
  · exact h

/-- Read after write, at any byte of any region. -/
theorem setByte_byteAt {s : State} {r : Region} (h : s.sorted r) (o : Nat) (b : Byte) (r1 : Region) (x : Nat) :
    (s.setByte r o b).byteAt r1 x = if r1 = r ∧ x = o then b else s.byteAt r1 x := by
  unfold State.byteAt State.setByte
  rw [setStor_cfg, setStor_stor]
  by_cases hr : r1 = r
  · subst hr; simp only [if_true, true_and]; rw [memRead_memWrite h]
  · simp [hr]

/-- What a byte's store leaves of the rest of the state. -/
theorem setByte_eq (s : State) (r : Region) (o : Nat) (b : Byte) :
    s.setByte r o b = s.setStor r (memWrite (imageByte s.cfg r) (s.stor r) o b) := rfl

theorem setByte_wf {s : State} (h : ∀ r, Memory.wf (imageByte s.cfg r) (regionSize r) (s.stor r)) {r : Region} {o : Nat}
    (ho : o < regionSize r) (b : Byte) :
    ∀ r1, Memory.wf (imageByte (s.setByte r o b).cfg r1) (regionSize r1) ((s.setByte r o b).stor r1) := by
  intro r1
  rw [setByte_cfg, setByte_eq, setStor_stor]
  split
  · rename_i he; subst he; exact memWrite_wf (h _) ho b
  · exact h r1

/-! ### A 16-bit register -/

@[simp] theorem setReg16_cfg (s : State) (r : Region) (o : Nat) (v : Half) : (s.setReg16 r o v).cfg = s.cfg := by
  simp [State.setReg16]

theorem setReg16_byteAt {s : State} {r : Region} (h : s.sorted r) (o : Nat) (v : Half) (r1 : Region) (x : Nat) :
    (s.setReg16 r o v).byteAt r1 x =
      if r1 = r ∧ x = o then hiByte v else if r1 = r ∧ x = o + 1 then loByte v else s.byteAt r1 x := by
  unfold State.setReg16
  rw [setByte_byteAt (setByte_sorted h ..), setByte_byteAt h]
  by_cases hr : r1 = r
  · by_cases h0 : x = o
    · subst h0; simp [hr]
    · simp [hr, h0]
  · simp [hr]

/-- A 16-bit value stored is read back. -/
theorem setReg16_reg16 {s : State} {r : Region} (h : s.sorted r) (o : Nat) (v : Half) :
    (s.setReg16 r o v).reg16 r o = v := by
  simp [State.reg16, setReg16_byteAt h]

/-- A 16-bit register elsewhere is not changed. -/
theorem setReg16_reg16_of_apart {s : State} {r r1 : Region} (h : s.sorted r) {o x : Nat} (v : Half)
    (hx : r1 ≠ r ∨ x + 2 ≤ o ∨ o + 2 ≤ x) : (s.setReg16 r o v).reg16 r1 x = s.reg16 r1 x := by
  simp only [State.reg16, setReg16_byteAt h]
  by_cases hr : r1 = r
  · have h0 : x ≠ o ∧ x ≠ o + 1 ∧ x + 1 ≠ o ∧ x + 1 ≠ o + 1 := by
      rcases hx with hx | hx
      · exact absurd hr hx
      · omega
    simp [h0]
  · simp [hr]

/-! ### Frames of a store -/

theorem setStor_samePorts (s : State) (r : Region) (m : List Host.Cell) : SamePorts s (s.setStor r m) := fun _ => by simp

theorem sameStorage_refl (s : State) : SameStorage s s := fun _ _ => rfl

theorem sameStorage_trans {s t u : State} (h : SameStorage s t) (g : SameStorage t u) : SameStorage s u :=
  fun r o => (g r o).trans (h r o)

theorem sameStorage_reg16 {s t : State} (h : SameStorage s t) (r : Region) (o : Nat) : t.reg16 r o = s.reg16 r o := by
  simp [State.reg16, h r]

/-- The same storage lists under the same configuration read the same. -/
theorem sameStorage_of_stor {s t : State} (hc : t.cfg = s.cfg) (h : ∀ r, t.stor r = s.stor r) : SameStorage s t :=
  fun r o => by simp [State.byteAt, hc, h]

end Sys2Proof.Machine
end

