-- ==== Sys2Proof/Laws/Emit.lean ====
section
/-! SUPPORT. Laws/Emit.lean: what emitting an event can do, reactions included: the one place where the emitter is unfolded. -/

namespace Sys2Proof.Machine

/-! ### The relation `Reacted` of Safety.lean -/

theorem Reacted.refl (s : State) : Reacted s s := by
  constructor <;> simp

theorem Reacted.trans {s t u : State} (h : Reacted s t) (g : Reacted t u) : Reacted s u where
  stor r := (g.stor r).trans (h.stor r)
  cfg := g.cfg.trans h.cfg
  acc := g.acc.trans h.acc
  cycles := g.cycles.trans h.cycles
  sysclk := g.sysclk.trans h.sysclk
  pitLoad := g.pitLoad.trans h.pitLoad
  pitCur := g.pitCur.trans h.pitCur
  prevTcnt := g.prevTcnt.trans h.prevTcnt
  result := g.result.trans h.result
  engineResults := g.engineResults.trans h.engineResults
  requests := g.requests.trans h.requests
  engine := g.engine.trans h.engine
  freeCount := g.freeCount.trans h.freeCount
  direction p := (g.direction p).trans (h.direction p)
  enabledPins p := (g.enabledPins p).trans (h.enabledPins p)
  writeCounter p := (g.writeCounter p).trans (h.writeCounter p)
  data p := by
    have g := g.data p
    rw [h.direction, h.enabledPins] at g
    exact g.trans (h.data p)
  queue l := (h.queue l).trans (g.queue l)
  out := h.out.trans g.out
  reactions := g.reactions.trans h.reactions
  irq := by
    rcases g.irq with ⟨gq, gi⟩ | g1
    · rcases h.irq with ⟨hq, hi⟩ | h1
      · exact .inl ⟨gq.trans hq, gi.trans hi⟩
      · exact .inr (by rw [gi, gq, h1])
    · exact .inr g1

/-- Events leave the storages alone. -/
theorem Reacted.sameStorage {s t : State} (h : Reacted s t) : SameStorage s t := sameStorage_of_stor h.cfg h.stor

theorem Reacted.orderly {s t : State} (h : Reacted s t) (ho : s.orderly) : t.orderly :=
  fun rs hrs => ho rs (h.reactions.subset hrs)

theorem Reacted.quiet {s t : State} (h : Reacted s t) (hq : s.quiet) : t.quiet :=
  List.suffix_nil.mp (hq ▸ h.reactions)

/-! ### The pieces -/

theorem reacted_log (s : State) (e : Event) : Reacted s (s.log e) := by
  constructor <;> simp

theorem reacted_dropReaction {s : State} {rs : List Reaction} {later : List (List Reaction)}
    (h : s.reactions = rs :: later) : Reacted s { s with reactions := later } := by
  constructor
  case stor => intro r; cases r <;> rfl
  case direction => intro p; cases p <;> rfl
  case enabledPins => intro p; cases p <;> rfl
  case writeCounter => intro p; cases p <;> rfl
  case data => intro p; cases p <;> rfl
  case reactions => exact ⟨[rs], by simp [h]⟩
  all_goals simp

theorem reacted_setHook (s : State) (p : Port) (h : Hook) : Reacted s (s.setHook p h) := by
  constructor <;> simp

/-- Pins that are no enabled inputs keep their data when the outside drives the port (R92). -/
theorem rx_keeps (q : PortState) (b : Byte) :
    ((q.data &&& ~~~(~~~q.direction &&& q.enabledPins)) ||| (b &&& (~~~q.direction &&& q.enabledPins))) &&&
      ~~~(~~~q.direction &&& q.enabledPins) = q.data &&& ~~~(~~~q.direction &&& q.enabledPins) := by
  ext i hi
  simp only [BitVec.getElem_and, BitVec.getElem_or, BitVec.getElem_not]
  cases q.data[i] <;> cases q.direction[i] <;> cases q.enabledPins[i] <;> cases b[i] <;> rfl

theorem reacted_portWriteRx (p : Port) (b : Byte) (s : State) : Reacted s (portWriteRx p b s) := by
  unfold portWriteRx
  constructor
  case data =>
    intro q
    rw [setPort_port]
    split
    · rename_i h; subst h; exact rx_keeps (s.port q) b
    · rfl
  case direction => intro q; rw [setPort_port]; split <;> simp_all
  case enabledPins => intro q; rw [setPort_port]; split <;> simp_all
  case writeCounter => intro q; rw [setPort_port]; split <;> simp_all
  all_goals simp

/-- `queue[l]` after a queue is replaced. -/
@[simp] theorem setQueue_getElem (s : State) (l m : Level) (q : List Byte) :
    (s.setQueue l q).queue[m] = if m = l then q else s.queue[m] := by
  simp only [setQueue_queue, Fin.getElem_fin]
  rw [Vector.getElem_set]
  by_cases h : m = l
  · simp [h]
  · simp [h, Fin.val_ne_of_ne (Ne.symm h)]

/-- Queueing a vector and driving the request level accordingly. -/
theorem reacted_enqueue (vec : Byte) (lvl : Level) (s : State) :
    Reacted s ((s.setQueue lvl (s.queue[lvl] ++ [vec])).setIrq (highest (s.setQueue lvl (s.queue[lvl] ++ [vec])).queue)) := by
  constructor
  case queue =>
    intro l
    rw [show ∀ u : State, ∀ x, (u.setIrq x).queue[l] = u.queue[l] from fun _ _ => rfl, setQueue_getElem]
    split
    · rename_i h; subst h; exact ⟨[vec], rfl⟩
    · exact List.prefix_rfl
  case irq => right; simp
  all_goals simp

/-! ### The emitter -/

/-- An emitter that does what `Reacted` allows, with the event first. -/
abbrev Emits (em : Event → State → Except Refusal State) : Prop :=
  ∀ e s t, em e s = .ok t → Reacted (s.log e) t

theorem react_reacted {em : Event → State → Except Refusal State} (hem : Emits em) {s t : State} {r : Reaction}
    (h : react em s r = .ok t) : Reacted s t := by
  cases r with
  | writeRx p b => cases h; exact reacted_portWriteRx p b s
  | inject vec lvl => exact ((reacted_enqueue vec lvl s).trans (reacted_log _ _)).trans (hem _ _ _ h)
  | replaceHook p k => cases h; exact reacted_setHook s p k
  | step => cases h
  | exec d => cases h
  | reset => cases h

theorem reactAll_reacted {em : Event → State → Except Refusal State} (hem : Emits em) {rs : List Reaction} {s t : State}
    (h : reactAll em rs s = .ok t) : Reacted s t := by
  induction rs generalizing s with
  | nil => cases h; exact Reacted.refl _
  | cons r rs ih =>
    rw [reactAll] at h
    split at h
    · cases h
    · rename_i s1 h1; exact (react_reacted hem h1).trans (ih h)

theorem emitWithin_reacted (n : Nat) : Emits (emitWithin n) := by
  induction n with
  | zero => intro e s t h; cases h; exact Reacted.refl _
  | succ n ih =>
    intro e s t h
    rw [emitWithin] at h
    cases hr : s.reactions with
    | nil => rw [hr] at h; cases h; exact Reacted.refl _
    | cons rs later =>
      rw [hr] at h
      have hd : Reacted (s.log e) { s.log e with reactions := later } :=
        reacted_dropReaction (s := s.log e) (by simpa using hr)
      exact hd.trans (reactAll_reacted ih h)

/-- Once for all: everything an emitted event can do. -/
theorem emit_reacted {e : Event} {s t : State} (h : emit e s = .ok t) : Reacted (s.log e) t :=
  emitWithin_reacted _ e s t h

theorem emit_reacted' {e : Event} {s t : State} (h : emit e s = .ok t) : Reacted s t :=
  (reacted_log s e).trans (emit_reacted h)

/-- With no reaction pending, an event is only logged. -/
theorem emit_quiet {s : State} (hq : s.quiet) (e : Event) : emit e s = .ok (s.log e) := by
  unfold emit; rw [show s.reactions = [] from hq]; rfl

/-! ### The bound on the reactions never cuts one off -/

theorem reactAll_agree {em em' : Event → State → Except Refusal State} (hem : Emits em) {k : Nat}
    (h : ∀ e s, s.reactions.length ≤ k → em e s = em' e s) {rs : List Reaction} {s : State} (hs : s.reactions.length ≤ k) :
    reactAll em rs s = reactAll em' rs s := by
  induction rs generalizing s with
  | nil => rfl
  | cons r rs ih =>
    have hr : react em s r = react em' s r := by
      cases r <;> try rfl
      exact h _ _ (by simpa using hs)
    rw [reactAll, reactAll, ← hr]
    split
    · rfl
    · rename_i s1 h1
      exact ih (((react_reacted hem h1).reactions.length_le).trans hs)

theorem emitWithin_enough (n : Nat) : ∀ (m : Nat) (e : Event) (s : State), s.reactions.length ≤ n →
    s.reactions.length ≤ m → emitWithin n e s = emitWithin m e s := by
  induction n with
  | zero =>
    intro m e s hn _
    have : s.reactions = [] := List.length_eq_zero_iff.mp (Nat.le_zero.mp hn)
    cases m <;> simp [emitWithin, this]
  | succ n ih =>
    intro m e s hn hm
    cases m with
    | zero =>
      have : s.reactions = [] := List.length_eq_zero_iff.mp (Nat.le_zero.mp hm)
      simp [emitWithin, this]
    | succ m =>
      rw [emitWithin, emitWithin]
      split
      · rfl
      · rename_i rs later hr
        rw [hr, List.length_cons] at hn hm
        exact reactAll_agree (emitWithin_reacted n) (k := min n m) (fun e s hs => ih m e s (by omega) (by omega))
          (by simp; omega)

/-- The reaction pending for an event runs at the event's point, the event being on the trace. -/
theorem emit_cons {s : State} {rs : List Reaction} {later : List (List Reaction)} (h : s.reactions = rs :: later)
    (e : Event) : emit e s = reactAll emit rs ({ s with reactions := later }.log e) := by
  rw [emit, h, List.length_cons, emitWithin, h]
  exact reactAll_agree (emitWithin_reacted _) (k := later.length)
    (fun e s hs => emitWithin_enough _ _ e s hs (le_refl _)) (by simp)

/-! ### Completion -/

theorem reactAll_completes {em : Event → State → Except Refusal State} (hem : Emits em)
    (hc : ∀ e s, s.orderly → ∃ t, em e s = .ok t) {rs : List Reaction} (hr : ∀ r ∈ rs, r.external = true) {s : State}
    (hs : s.orderly) : ∃ t, reactAll em rs s = .ok t := by
  induction rs generalizing s with
  | nil => exact ⟨s, rfl⟩
  | cons r rs ih =>
    have h1 : ∃ s1, react em s r = .ok s1 := by
      cases r with
      | writeRx p b => exact ⟨_, rfl⟩
      | inject vec lvl => exact hc _ _ (fun rs h => hs rs (by simpa using h))
      | replaceHook p h => exact ⟨_, rfl⟩
      | step => exact absurd (hr .step (by simp)) (by decide)
      | exec d => exact absurd (hr (.exec d) (by simp)) (by simp [Reaction.external])
      | reset => exact absurd (hr .reset (by simp)) (by decide)
    obtain ⟨s1, h1⟩ := h1
    rw [reactAll, h1]
    exact ih (fun r h => hr r (by simp [h])) ((react_reacted hem h1).orderly hs)

/-- An event completes when no listener issues a nested step. -/
theorem emit_completes {s : State} (hs : s.orderly) (e : Event) : ∃ t, emit e s = .ok t := by
  have key : ∀ n e s, s.orderly → ∃ t, emitWithin n e s = .ok t := by
    intro n
    induction n with
    | zero => intro e s _; exact ⟨_, rfl⟩
    | succ n ih =>
      intro e s hs
      rw [emitWithin]
      split
      · exact ⟨_, rfl⟩
      · rename_i rs later hr
        refine reactAll_completes (emitWithin_reacted n) ih (hs rs (by simp [hr])) fun x hx => hs x ?_
        rw [hr]; exact List.mem_cons_of_mem _ (by simpa using hx)
  exact key _ e s hs

end Sys2Proof.Machine
end

