-- ==== Sys2Proof/Laws/Ops.lean ====
section
/-! SUPPORT. Laws/Ops.lean: one lemma per shared operation of Machine/Ops.lean that says everything it can do when it answers,
and, for those that emit, what it answers when no listener reacts. -/

namespace Sys2Proof.Machine

/-! ### Outcomes -/

@[simp] theorem finish_ok (s : State) : finish (.ok s) = .next (s.setResult .none) := rfl
@[simp] theorem finish_error (e : Refusal) : finish (.error e) = .refused e := rfl
@[simp] theorem answer_ok (s : State) (r : Result) : answer s (.ok r) = .next (s.setResult r) := rfl
@[simp] theorem answer_error (s : State) (e : Refusal) : answer s (.error e) = .refused e := rfl

theorem finish_next {o : Except Refusal State} {t : State} :
    finish o = .next t ↔ ∃ s, o = .ok s ∧ t = s.setResult .none := by
  cases o <;> simp [eq_comm]

theorem answer_next {s t : State} {o : Except Refusal Result} :
    answer s o = .next t ↔ ∃ r, o = .ok r ∧ t = s.setResult r := by
  cases o <;> simp [eq_comm]

/-! ### The request level (R153) -/

/-- Nothing is pending above the highest level. -/
theorem highest_above {q : Vector (List Byte) 8} {l : Level} (h : highest q < l) : q[l] = [] := by
  revert h
  unfold highest
  fin_cases l <;> (repeat' split) <;> simp_all

/-- The highest level, when there is one, has something pending. -/
theorem highest_pending {q : Vector (List Byte) 8} (h : highest q ≠ 0) : q[highest q] ≠ [] := by
  revert h
  unfold highest
  (repeat' split) <;> simp_all

/-- The highest level is 0 exactly when levels 1 to 7 are empty. -/
theorem highest_eq_zero {q : Vector (List Byte) 8} : highest q = 0 ↔ ∀ l : Level, l ≠ 0 → q[l] = [] := by
  constructor
  · intro h l hl
    exact highest_above (by rw [h]; exact Fin.pos_of_ne_zero hl)
  · intro h
    by_contra hne
    exact highest_pending hne (h _ hne)

/-! ### Raising, requesting, acknowledging -/

theorem rescan_ok {s t : State} (h : rescan s = .ok t) :
    Reacted ((s.setIrq (highest s.queue)).log (.irqLine (highest s.queue))) t ∧ t.irq = highest t.queue := by
  have hr := emit_reacted h
  refine ⟨hr, ?_⟩
  rcases hr.irq with ⟨hq, hi⟩ | h1
  · simp [hi, hq]
  · exact h1

theorem rescan_quiet {s : State} (hq : s.quiet) :
    rescan s = .ok ((s.setIrq (highest s.queue)).log (.irqLine (highest s.queue))) :=
  emit_quiet (by simpa [State.quiet] using hq) _

/-- `Inject`: the vector stands at the back of its queue, then whatever the listeners do, and the request level follows. -/
theorem injectVector_ok {vec : Byte} {lvl : Level} {s t : State} (h : injectVector vec lvl s = .ok t) :
    Reacted s t ∧ s.queue[lvl] ++ [vec] <+: t.queue[lvl] ∧ t.irq = highest t.queue := by
  have hr := rescan_ok (s := s.setQueue lvl (s.queue[lvl] ++ [vec])) h
  refine ⟨((reacted_enqueue vec lvl s).trans (reacted_log _ _)).trans hr.1, ?_, hr.2⟩
  have := hr.1.queue lvl
  simpa using this

/-- `Inject` with no listener. -/
theorem injectVector_quiet {s : State} (hq : s.quiet) (vec : Byte) (lvl : Level) :
    injectVector vec lvl s = .ok (((s.setQueue lvl (s.queue[lvl] ++ [vec])).setIrq
      (highest (s.setQueue lvl (s.queue[lvl] ++ [vec])).queue)).log
      (.irqLine (highest (s.setQueue lvl (s.queue[lvl] ++ [vec])).queue))) :=
  rescan_quiet (by simpa [State.quiet] using hq)

theorem injectVector_completes {s : State} (hs : s.orderly) (vec : Byte) (lvl : Level) :
    ∃ t, injectVector vec lvl s = .ok t :=
  emit_completes (fun rs h => hs rs (by simpa using h)) _

theorem raiseOnce_ok {vec : Byte} {lvl : Level} {s t : State} (h : raiseOnce vec lvl s = .ok t) :
    (vec ∈ s.queue[lvl] ∧ t = s) ∨ (vec ∉ s.queue[lvl] ∧ injectVector vec lvl s = .ok t) := by
  unfold raiseOnce hasPending at h
  by_cases hv : vec ∈ s.queue[lvl]
  · simp only [hv, decide_true, if_true] at h; cases h; exact .inl ⟨hv, rfl⟩
  · simp only [hv, decide_false] at h; exact .inr ⟨hv, h⟩

theorem raiseOnce_reacted {vec : Byte} {lvl : Level} {s t : State} (h : raiseOnce vec lvl s = .ok t) : Reacted s t := by
  rcases raiseOnce_ok h with ⟨_, rfl⟩ | ⟨_, h⟩
  · exact Reacted.refl _
  · exact (injectVector_ok h).1

theorem raiseOnce_completes {s : State} (hs : s.orderly) (vec : Byte) (lvl : Level) :
    ∃ t, raiseOnce vec lvl s = .ok t := by
  unfold raiseOnce; split
  · exact ⟨_, rfl⟩
  · exact injectVector_completes hs vec lvl

/-- `Ack` on an empty queue: the sentinel, and nothing changes (R158). -/
theorem ackLevel_empty {s : State} {lvl : Level} (h : s.queue[lvl] = []) : ackLevel lvl s = .ok (s.cfg.autovector, s) := by
  unfold ackLevel; rw [h]

/-- `Ack` with something pending, no listener (R152). -/
theorem ackLevel_quiet {s : State} (hq : s.quiet) {lvl : Level} {vec : Byte} {rest : List Byte}
    (h : s.queue[lvl] = vec :: rest) :
    ackLevel lvl s = .ok (vec.setWidth 32,
      ((((s.setQueue lvl rest).setIrq 0).log (.irqLine 0)).setIrq (highest (s.setQueue lvl rest).queue)).log
        (.irqLine (highest (s.setQueue lvl rest).queue))) := by
  unfold ackLevel
  rw [h]
  simp only
  rw [emit_quiet (by simpa [State.quiet] using hq)]
  simp only
  rw [rescan_quiet (by simpa [State.quiet] using hq)]
  simp

/-- `Ack` with something pending: the front leaves its queue; then events; the request level is the highest at the end. -/
theorem ackLevel_ok {s t : State} {lvl : Level} {v : Word} {vec : Byte} {rest : List Byte}
    (hv : s.queue[lvl] = vec :: rest) (h : ackLevel lvl s = .ok (v, t)) :
    v = vec.setWidth 32 ∧ t.irq = highest t.queue ∧
      ∃ u, Reacted ((s.setQueue lvl rest).setIrq 0) u ∧ Reacted (u.setIrq (highest u.queue)) t := by
  unfold ackLevel at h
  rw [hv] at h
  simp only at h
  cases h1 : emit (.irqLine 0) ((s.setQueue lvl rest).setIrq 0) with
  | error e => rw [h1] at h; cases h
  | ok u =>
    rw [h1] at h
    simp only at h
    cases h2 : rescan u with
    | error e => rw [h2] at h; cases h
    | ok w =>
      rw [h2] at h
      cases h
      have hr := rescan_ok h2
      exact ⟨rfl, hr.2, u, emit_reacted' h1, (reacted_log _ _).trans hr.1⟩

theorem ackLevel_completes {s : State} (hs : s.orderly) (lvl : Level) : ∃ v t, ackLevel lvl s = .ok (v, t) := by
  cases hq : s.queue[lvl] with
  | nil => exact ⟨_, _, ackLevel_empty hq⟩
  | cons vec rest =>
    obtain ⟨u, hu⟩ := emit_completes (s := (s.setQueue lvl rest).setIrq 0) (fun rs h => hs rs (by simpa using h)) (.irqLine 0)
    have hou : u.orderly := (emit_reacted' hu).orderly fun rs h => hs rs (by simpa using h)
    obtain ⟨t, ht⟩ := emit_completes (s := u.setIrq (highest u.queue)) (fun rs h => hou rs (by simpa using h))
      (.irqLine (highest u.queue))
    refine ⟨vec.setWidth 32, t, ?_⟩
    unfold ackLevel
    rw [hq]
    simp only
    rw [hu]
    simp only
    rw [show rescan u = .ok t from ht]

/-! ### Ports -/

theorem portSetDir_ok {p : Port} {m : Byte} {s t : State} (h : portSetDir p m s = .ok t) :
    Reacted ((s.setPort p { s.port p with direction := m }).log (.dirChange p m)) t := emit_reacted h

theorem portSetDir_quiet {s : State} (hq : s.quiet) (p : Port) (m : Byte) :
    portSetDir p m s = .ok ((s.setPort p { s.port p with direction := m }).log (.dirChange p m)) :=
  emit_quiet (by simpa [State.quiet] using hq) _

theorem portSetDir_completes {s : State} (hs : s.orderly) (p : Port) (m : Byte) : ∃ t, portSetDir p m s = .ok t :=
  emit_completes (fun rs h => hs rs (by simpa using h)) _

/-- A bump touches nothing but the write counter, and the count of free values at its end. -/
theorem bumpWriteCounter_eq (p : Port) (s : State) :
    ∃ w n, bumpWriteCounter p s = { s.setPort p { s.port p with writeCounter := w } with freeCount := n } ∧
      ((s.port p).writeCounter ≠ BitVec.allOnes 64 → w = (s.port p).writeCounter + 1 ∧ n = s.freeCount) := by
  unfold bumpWriteCounter
  split
  · exact ⟨_, _, rfl, fun h => absurd ‹_› h⟩
  · exact ⟨_, s.freeCount, by cases p <;> rfl, fun _ => ⟨rfl, rfl⟩⟩

theorem bumpWriteCounter_of_ne {p : Port} {s : State} (h : (s.port p).writeCounter ≠ BitVec.allOnes 64) :
    bumpWriteCounter p s = s.setPort p { s.port p with writeCounter := (s.port p).writeCounter + 1 } := by
  unfold bumpWriteCounter; rw [if_neg h]

@[simp] theorem bumpWriteCounter_reactions (p : Port) (s : State) : (bumpWriteCounter p s).reactions = s.reactions := by
  unfold bumpWriteCounter; split <;> simp

theorem portWriteTx_ok {p : Port} {b : Byte} {s t : State} (h : portWriteTx p b s = .ok t) :
    Reacted ((bumpWriteCounter p (s.setPort p { s.port p with data := txData (s.port p) b })).log
      (.txWrite p (txData (s.port p) b))) t := emit_reacted h

theorem portWriteTx_quiet {s : State} (hq : s.quiet) (p : Port) (b : Byte) :
    portWriteTx p b s = .ok ((bumpWriteCounter p (s.setPort p { s.port p with data := txData (s.port p) b })).log
      (.txWrite p (txData (s.port p) b))) :=
  emit_quiet (by simpa [State.quiet] using hq) _

theorem portWriteTx_completes {s : State} (hs : s.orderly) (p : Port) (b : Byte) : ∃ t, portWriteTx p b s = .ok t :=
  emit_completes (fun rs h => hs rs (by simpa using h)) _

/-! ### Timer -/

/-- `Resync` lands in the window below the target (R114). -/
theorem resyncValue_bounds (t a : Int) :
    t - wrapCycles < resyncValue t a ∧ resyncValue t a ≤ t ∧ (resyncValue t a - a) % wrapCycles = 0 := by
  have h1 := Int.emod_nonneg (t - a) (show wrapCycles ≠ 0 by decide)
  have h2 := Int.emod_lt_of_pos (t - a) (show 0 < wrapCycles by decide)
  have h3 := Int.emod_add_mul_ediv (t - a) wrapCycles
  refine ⟨by unfold resyncValue; omega, by unfold resyncValue; omega, ?_⟩
  have : resyncValue t a - a = wrapCycles * ((t - a) / wrapCycles) := by unfold resyncValue; omega
  rw [this]; exact Int.mul_emod_right _ _

@[simp] theorem setAcc_getElem (s : State) (k m : Channel) (a : Int) :
    (s.setAcc k a).acc[m] = if m = k then a else s.acc[m] := by
  simp only [setAcc_acc, Fin.getElem_fin]
  rw [Vector.getElem_set]
  by_cases h : m = k
  · simp [h]
  · simp [h, Fin.val_ne_of_ne (Ne.symm h)]

@[simp] theorem setAcc_target (s : State) (k m : Channel) (a : Int) : (s.setAcc k a).target m = s.target m := by
  simp [State.target]

@[simp] theorem setAcc_flag (s : State) (k m : Channel) (a : Int) : (s.setAcc k a).flag m = s.flag m := by
  simp [State.flag]

@[simp] theorem setAcc_mask (s : State) (k m : Channel) (a : Int) : (s.setAcc k a).mask m = s.mask m := by
  simp [State.mask]

/-- `ResyncAll` resynchronises every channel to its own target (R116). -/
theorem resyncAll_acc (s : State) (k : Channel) : (resyncAll s).acc[k] = resyncValue (s.target k) s.acc[k] := by
  unfold resyncAll resync
  fin_cases k <;> simp

/-- One channel's part of the exec step (R118): it stays in `i32`, or it is refused. -/
theorem execChannel_ok {delta : Nat} {k : Channel} {s t : State} (h : execChannel delta k s = .ok t) :
    s.acc[k] + delta ≤ i32Max ∧ finishChannel k (s.setAcc k (s.acc[k] + delta)) = .ok t := by
  unfold execChannel at h
  split at h
  · cases h
  · exact ⟨by omega, h⟩

/-- Finishing: nothing, or the flag; and then the interrupt, if its mask bit is set (R118). -/
theorem finishChannel_ok {k : Channel} {s t : State} (h : finishChannel k s = .ok t) :
    (s.due k = false ∧ t = s) ∨
      (s.due k = true ∧ (s.setFlag k).mask k = false ∧ t = s.setFlag k) ∨
      (s.due k = true ∧ (s.setFlag k).mask k = true ∧ raiseTimer k (s.setFlag k) = .ok t) := by
  unfold finishChannel at h
  split at h
  · rename_i hd
    split at h
    · rename_i hm; exact .inr (.inr ⟨hd, hm, h⟩)
    · rename_i hm; cases h; exact .inr (.inl ⟨hd, by simpa using hm, rfl⟩)
  · rename_i hd; cases h; exact .inl ⟨by simpa using hd, rfl⟩

/-! ### Clock and periodic timer -/

theorem pitRecompute_ok {s t : State} (h : pitRecompute s = .ok t) :
    pitLoadNow s ≤ i32Max ∧ t = { s with pitLoad := pitLoadNow s, pitCur := pitLoadNow s } := by
  unfold pitRecompute at h
  split at h
  · cases h
  · cases h; exact ⟨by omega, rfl⟩

theorem pitRecompute_of_le {s : State} (h : pitLoadNow s ≤ i32Max) :
    pitRecompute s = .ok { s with pitLoad := pitLoadNow s, pitCur := pitLoadNow s } := by
  unfold pitRecompute; rw [if_neg (by omega)]

theorem pitLoadOf_nonneg (c : Cfg) (picr pitr : Half) (k : Nat) : 0 ≤ pitLoadOf c picr pitr k := by
  unfold pitLoadOf; split
  · decide
  · exact Int.natCast_nonneg _

/-- The exec step of the clock/system module (R135): disabled, counting, or firing. -/
theorem clockExec_ok {delta : Nat} {s t : State} (h : clockExec delta s = .ok t) :
    delta < 2 ^ 31 ∧
      ((s.pitLoad = 0 ∧ t = s) ∨
        (s.pitLoad ≠ 0 ∧ i32Min ≤ s.pitCur - delta ∧ 0 < s.pitCur - delta ∧ t = { s with pitCur := s.pitCur - delta }) ∨
        (s.pitLoad ≠ 0 ∧ i32Min ≤ s.pitCur - delta ∧ s.pitCur - delta ≤ 0 ∧
          ∃ u, raisePit { s with pitCur := s.pitCur - delta } = .ok u ∧ t = { u with pitCur := u.pitCur + u.pitLoad })) := by
  unfold clockExec at h
  split at h
  · cases h
  · refine ⟨by omega, ?_⟩
    split at h
    · rename_i h0; cases h; exact .inl ⟨h0, rfl⟩
    · rename_i h0
      split at h
      · cases h
      · split at h
        · cases h; exact .inr (.inl ⟨h0, by omega, by omega, rfl⟩)
        · refine .inr (.inr ⟨h0, by omega, by omega, ?_⟩)
          cases h1 : raisePit { s with pitCur := s.pitCur - delta } with
          | error e => rw [h1] at h; cases h
          | ok u => rw [h1] at h; cases h; exact ⟨u, rfl, rfl⟩

/-! ### Region accesses -/

@[simp] theorem storeByte_cfg (r : Region) (o : Nat) (b : Byte) (s : State) : (storeByte r o b s).cfg = s.cfg := by
  unfold storeByte; split <;> simp

theorem storeByte_sorted {s : State} {r1 : Region} (h : s.sorted r1) (r : Region) (o : Nat) (b : Byte) :
    (storeByte r o b s).sorted r1 := by
  unfold storeByte; split
  · exact h
  · exact setByte_sorted h r o b

/-- A byte of `Tcnt` keeps its storage (R111); any other byte is stored. -/
theorem storeByte_byteAt {s : State} {r : Region} (h : s.sorted r) (o : Nat) (b : Byte) (r1 : Region) (x : Nat) :
    (storeByte r o b s).byteAt r1 x =
      if (r1 = r ∧ x = o) ∧ ¬ (r = .timer ∧ covers16 s.cfg.tTcnt o = true) then b else s.byteAt r1 x := by
  unfold storeByte
  split
  · rename_i hc; rw [if_neg (fun hn => hn.2 hc)]
  · rename_i hc; simp [setByte_byteAt h, hc]

/-- What a store leaves alone: everything but the storages. -/
theorem storeByte_frame (r : Region) (o : Nat) (b : Byte) (s : State) : ∃ m, storeByte r o b s = s.setStor r m := by
  unfold storeByte; split
  · exact ⟨s.stor r, by cases r <;> rfl⟩
  · exact ⟨_, rfl⟩

/-- A 16-bit write answers what its side effects, run in order on both bytes stored, answer (R87). -/
theorem regionWrite16_ok {r : Region} {o : Nat} {v : Half} {s t : State} (h : regionWrite16 r o v s = .ok t) :
    (regAt s.cfg r o = regAt s.cfg r (o + 1) ∧
        sideEffect r o (regAt s.cfg r o) (storeByte r (o + 1) (loByte v) (storeByte r o (hiByte v) s)) = .ok t) ∨
      (regAt s.cfg r o ≠ regAt s.cfg r (o + 1) ∧
        ∃ u, sideEffect r o (regAt s.cfg r o) (storeByte r (o + 1) (loByte v) (storeByte r o (hiByte v) s)) = .ok u ∧
          sideEffect r (o + 1) (regAt s.cfg r (o + 1)) u = .ok t) := by
  unfold regionWrite16 at h
  simp only at h
  split at h
  · rename_i he; exact .inl ⟨he, h⟩
  · rename_i he
    refine .inr ⟨he, ?_⟩
    cases h1 : sideEffect r o (regAt s.cfg r o) (storeByte r (o + 1) (loByte v) (storeByte r o (hiByte v) s)) with
    | error e => rw [h1] at h; cases h
    | ok u => rw [h1] at h; exact ⟨u, rfl, h⟩

end Sys2Proof.Machine
end

