-- ==== Sys2Proof/Laws/PerInstr.lean ====
section
/-! SUPPORT. Laws/PerInstr.lean: the family TableRow: the word of every well-formed instruction has the fixed bits of its row
of `spec/opcode_table.json` (`match` under `mask`). -/

namespace Sys2Proof.Laws

/-- The `match` and `mask` columns of the table, as numbers. -/
def tableRow : Instr → Nat × Nat
  | .read8 _ => (0x010000000000000000, 0xFF00000000FFFFFFFF)
  | .read16 _ => (0x020000000000000000, 0xFF00000000FFFFFFFF)
  | .read32 _ => (0x040000000000000000, 0xFF00000000FFFFFFFF)
  | .write8 _ _ => (0x110000000000000000, 0xFF00000000FFFFFF00)
  | .write16 _ _ => (0x120000000000000000, 0xFF00000000FFFF0000)
  | .write32 _ _ => (0x140000000000000000, 0xFF0000000000000000)
  | .fetch16 _ => (0x220000000000000000, 0xFF00000000FFFFFFFF)
  | .fetch32 _ => (0x240000000000000000, 0xFF00000000FFFFFFFF)
  | .rgnInrangeT _ => (0x280000000000000000, 0xFF00000000FFFFFFFF)
  | .rgnInrangeS _ => (0x290000000000000000, 0xFF00000000FFFFFFFF)
  | .rgnInrangeQ _ => (0x2A0000000000000000, 0xFF00000000FFFFFFFF)
  | .rgnR8T _ => (0x300000000000000000, 0xFF00000000FFFFFFFF)
  | .rgnR8S _ => (0x310000000000000000, 0xFF00000000FFFFFFFF)
  | .rgnR8Q _ => (0x320000000000000000, 0xFF00000000FFFFFFFF)
  | .rgnR16T _ => (0x340000000000000000, 0xFF00000000FFFFFFFF)
  | .rgnR16S _ => (0x350000000000000000, 0xFF00000000FFFFFFFF)
  | .rgnR16Q _ => (0x360000000000000000, 0xFF00000000FFFFFFFF)
  | .rgnW8T _ _ => (0x380000000000000000, 0xFF00000000FFFFFF00)
  | .rgnW8S _ _ => (0x390000000000000000, 0xFF00000000FFFFFF00)
  | .rgnW8Q _ _ => (0x3A0000000000000000, 0xFF00000000FFFFFF00)
  | .rgnW16T _ _ => (0x3C0000000000000000, 0xFF00000000FFFF0000)
  | .rgnW16S _ _ => (0x3D0000000000000000, 0xFF00000000FFFF0000)
  | .rgnW16Q _ _ => (0x3E0000000000000000, 0xFF00000000FFFF0000)
  | .pSetdir _ _ => (0x500000000000000000, 0xFFFFFFFFFCFFFFFF00)
  | .pWritetx _ _ => (0x510000000000000000, 0xFFFFFFFFFCFFFFFF00)
  | .pWriterx _ _ => (0x520000000000000000, 0xFFFFFFFFFCFFFFFF00)
  | .pRead _ => (0x530000000000000000, 0xFFFFFFFFFCFFFFFFFF)
  | .pEnable _ _ => (0x540000000000000000, 0xFFFFFFFFFCFFFFFF00)
  | .inject _ _ => (0x600000000000000000, 0xFFFFFFFFF8FFFFFF00)
  | .haspend _ _ => (0x610000000000000000, 0xFFFFFFFFF8FFFFFF00)
  | .ack _ => (0x620000000000000000, 0xFFFFFFFFF8FFFFFFFF)
  | .sysStep => (0x700000000000000000, 0xFFFFFFFFFFFFFFFFFF)
  | .sysExec _ => (0x710000000000000000, 0xFFFFFFFFFF00000000)
  | .sysReset => (0x720000000000000000, 0xFFFFFFFFFFFFFFFFFF)
  | .illegal _ => (0x730000000000000000, 0xFFFFFFFFFFFFFF0000)
  | .resethook => (0x740000000000000000, 0xFFFFFFFFFFFFFFFFFF)
  | .resetpc => (0x750000000000000000, 0xFFFFFFFFFFFFFFFFFF)
  | .resetsp => (0x760000000000000000, 0xFFFFFFFFFFFFFFFFFF)
  | .tExec _ => (0x780000000000000000, 0xFFFFFFFFFF00000000)
  | .sExec _ => (0x790000000000000000, 0xFFFFFFFFFF00000000)
  | .qExec _ => (0x7A0000000000000000, 0xFFFFFFFFFF00000000)
  | .ddrgp _ => (0xFF906, 0xFFFFF)
  | .portgp _ => (0xFF907, 0xFFFFF)
  | .tcnt _ => (0xFF90A, 0xFFFFE)
  | .toc1 _ => (0xFF914, 0xFFFFE)
  | .toc2 _ => (0xFF916, 0xFFFFE)
  | .toc3 _ => (0xFF918, 0xFFFFE)
  | .toc4 _ => (0xFF91A, 0xFFFFE)
  | .tmsk _ => (0xFF920, 0xFFFFE)
  | .tflg _ => (0xFF922, 0xFFFFE)
  | .syncr _ => (0xFFA04, 0xFFFFE)
  | .porte0 _ => (0xFFA11, 0xFFFFF)
  | .porte1 _ => (0xFFA13, 0xFFFFF)
  | .ddre _ => (0xFFA15, 0xFFFFF)
  | .pepar _ => (0xFFA17, 0xFFFFF)
  | .portf0 _ => (0xFFA19, 0xFFFFF)
  | .portf1 _ => (0xFFA1B, 0xFFFFF)
  | .ddrf _ => (0xFFA1D, 0xFFFFF)
  | .pfpar _ => (0xFFA1F, 0xFFFFF)
  | .picr _ => (0xFFA22, 0xFFFFE)
  | .pitr _ => (0xFFA24, 0xFFFFE)

/-- The word agrees with `mt` on the bits of `mk`. -/
def HasFixedBits (row : Nat × Nat) : OpWord → Prop
  | .tw w => w &&& BitVec.ofNat 72 row.2 = BitVec.ofNat 72 row.1
  | .reg w => w &&& BitVec.ofNat 56 row.2 = BitVec.ofNat 56 row.1

/-- The word of a well-formed instruction has the fixed bits of its row. -/
def TableRow.Statement (i : Instr) : Prop := i.wf = true → HasFixedBits (tableRow i) (encode i)

/-! ### Operand words keep to their fields -/

theorem and_append {m n : Nat} (a b : BitVec m) (c d : BitVec n) : (a ++ c) &&& (b ++ d) = (a &&& b) ++ (c &&& d) := by
  ext i hi
  simp only [BitVec.getElem_and, BitVec.getElem_append]
  split <;> rfl

theorem packTw_and (o m1 : BitVec 8) (a m2 d m3 : Word) :
    packTw o a d &&& packTw m1 m2 m3 = packTw (o &&& m1) (a &&& m2) (d &&& m3) := by
  unfold packTw; rw [and_append, and_append]

theorem packReg_and (a m1 : Word) (k m2 : BitVec 8) (d m3 : Half) :
    packReg a k d &&& packReg m1 m2 m3 = packReg (a &&& m1) (k &&& m2) (d &&& m3) := by
  unfold packReg; rw [and_append, and_append]

theorem byteWord_unused (v : Byte) : byteWord v &&& 0xFFFFFF00 = 0 := by
  rw [show (0xFFFFFF00 : Word) = ~~~((BitVec.allOnes 8).setWidth 32) by decide]
  ext i hi
  rw [BitVec.getElem_and, BitVec.getElem_not, BitVec.getElem_setWidth, byteWord, BitVec.getElem_setWidth]
  by_cases h : i < 8
  · rw [BitVec.getLsbD_allOnes]; simp only [h, decide_true, Bool.not_true, Bool.and_false]; simp
  · simp [BitVec.getLsbD_of_ge _ _ (Nat.le_of_not_lt h)]

theorem halfWord_unused (v : Half) : halfWord v &&& 0xFFFF0000 = 0 := by
  rw [show (0xFFFF0000 : Word) = ~~~((BitVec.allOnes 16).setWidth 32) by decide]
  ext i hi
  rw [BitVec.getElem_and, BitVec.getElem_not, BitVec.getElem_setWidth, halfWord, BitVec.getElem_setWidth]
  by_cases h : i < 16
  · rw [BitVec.getLsbD_allOnes]; simp only [h, decide_true, Bool.not_true, Bool.and_false]; simp
  · simp [BitVec.getLsbD_of_ge _ _ (Nat.le_of_not_lt h)]

theorem portWord_unused (p : Port) : portWord p &&& 0xFFFFFFFC = 0 := by cases p <;> decide

theorem levelWord_unused (l : Level) : levelWord l &&& 0xFFFFFFF8 = 0 := by revert l; decide

theorem unused_zero (a : Word) : a &&& 0 = 0 := BitVec.and_zero

/-- A transaction word has the fixed bits of a row whose mask is split as the three fields are. -/
theorem fixed_tw {row : Nat × Nat} {o m1 : BitVec 8} {a m2 d m3 : Word} (hk : BitVec.ofNat 72 row.2 = packTw m1 m2 m3)
    (ht : BitVec.ofNat 72 row.1 = packTw (o &&& m1) 0 0) (ha : a &&& m2 = 0) (hd : d &&& m3 = 0) :
    HasFixedBits row (.tw (packTw o a d)) := by
  change _ &&& _ = _
  rw [hk, ht, packTw_and, ha, hd]

/-- A register-access word has the fixed bits of a row whose mask lies in the address. -/
theorem fixed_reg {row : Nat × Nat} {a m : Word} {k : BitVec 8} {d : Half} (hk : BitVec.ofNat 56 row.2 = packReg m 0 0)
    (ha : BitVec.ofNat 56 row.1 = packReg (a &&& m) 0 0) : HasFixedBits row (.reg (packReg a k d)) := by
  change _ &&& _ = _
  rw [hk, ha, packReg_and, show k &&& 0 = 0 by simp, show d &&& 0 = 0 by simp]

/-- The word of an access to a named register has the fixed bits of the register's row: for an 8-bit register's own byte,
and for either byte of a 16-bit register. -/
theorem fixed_register {row : Nat × Nat} {n : RegName} {m : Word} (hk : BitVec.ofNat 56 row.2 = packReg m 0 0)
    (h0 : BitVec.ofNat 56 row.1 = packReg (BitVec.ofNat 32 (registerAddress n) &&& m) 0 0) {acc : RegAccess}
    (h1 : acc.fits8 = true ∨
      BitVec.ofNat 56 row.1 = packReg (BitVec.ofNat 32 (registerAddress n + 1) &&& m) 0 0) :
    HasFixedBits row (encodeReg n acc) := by
  cases acc with
  | read8 lo =>
    cases lo with
    | false => exact fixed_reg hk h0
    | true => exact fixed_reg hk (h1.resolve_left (by decide))
  | write8 lo v =>
    cases lo with
    | false => exact fixed_reg hk h0
    | true => exact fixed_reg hk (h1.resolve_left (by simp [RegAccess.fits8]))
  | read16 => exact fixed_reg hk h0
  | write16 v => exact fixed_reg hk h0

/-! ### One lemma per constructor -/

theorem TableRow.read8 (addr : Word) : TableRow.Statement (.read8 addr) := fun _ =>
  fixed_tw (row := (0x010000000000000000, 0xFF00000000FFFFFFFF)) (m1 := 0xFF) (m2 := 0x00000000) (m3 := 0xFFFFFFFF) (by decide) (by decide) (unused_zero _) ((by decide))
theorem TableRow.read16 (addr : Word) : TableRow.Statement (.read16 addr) := fun _ =>
  fixed_tw (row := (0x020000000000000000, 0xFF00000000FFFFFFFF)) (m1 := 0xFF) (m2 := 0x00000000) (m3 := 0xFFFFFFFF) (by decide) (by decide) (unused_zero _) ((by decide))
theorem TableRow.read32 (addr : Word) : TableRow.Statement (.read32 addr) := fun _ =>
  fixed_tw (row := (0x040000000000000000, 0xFF00000000FFFFFFFF)) (m1 := 0xFF) (m2 := 0x00000000) (m3 := 0xFFFFFFFF) (by decide) (by decide) (unused_zero _) ((by decide))
theorem TableRow.write8 (addr : Word) (v : Byte) : TableRow.Statement (.write8 addr v) := fun _ =>
  fixed_tw (row := (0x110000000000000000, 0xFF00000000FFFFFF00)) (m1 := 0xFF) (m2 := 0x00000000) (m3 := 0xFFFFFF00) (by decide) (by decide) (unused_zero _) (byteWord_unused _)
theorem TableRow.write16 (addr : Word) (v : Half) : TableRow.Statement (.write16 addr v) := fun _ =>
  fixed_tw (row := (0x120000000000000000, 0xFF00000000FFFF0000)) (m1 := 0xFF) (m2 := 0x00000000) (m3 := 0xFFFF0000) (by decide) (by decide) (unused_zero _) (halfWord_unused _)
theorem TableRow.write32 (addr : Word) (v : Word) : TableRow.Statement (.write32 addr v) := fun _ =>
  fixed_tw (row := (0x140000000000000000, 0xFF0000000000000000)) (m1 := 0xFF) (m2 := 0x00000000) (m3 := 0x00000000) (by decide) (by decide) (unused_zero _) (unused_zero _)
theorem TableRow.fetch16 (addr : Word) : TableRow.Statement (.fetch16 addr) := fun _ =>
  fixed_tw (row := (0x220000000000000000, 0xFF00000000FFFFFFFF)) (m1 := 0xFF) (m2 := 0x00000000) (m3 := 0xFFFFFFFF) (by decide) (by decide) (unused_zero _) ((by decide))
theorem TableRow.fetch32 (addr : Word) : TableRow.Statement (.fetch32 addr) := fun _ =>
  fixed_tw (row := (0x240000000000000000, 0xFF00000000FFFFFFFF)) (m1 := 0xFF) (m2 := 0x00000000) (m3 := 0xFFFFFFFF) (by decide) (by decide) (unused_zero _) ((by decide))
theorem TableRow.rgnInrangeT (addr : Word) : TableRow.Statement (.rgnInrangeT addr) := fun _ =>
  fixed_tw (row := (0x280000000000000000, 0xFF00000000FFFFFFFF)) (m1 := 0xFF) (m2 := 0x00000000) (m3 := 0xFFFFFFFF) (by decide) (by decide) (unused_zero _) ((by decide))
theorem TableRow.rgnInrangeS (addr : Word) : TableRow.Statement (.rgnInrangeS addr) := fun _ =>
  fixed_tw (row := (0x290000000000000000, 0xFF00000000FFFFFFFF)) (m1 := 0xFF) (m2 := 0x00000000) (m3 := 0xFFFFFFFF) (by decide) (by decide) (unused_zero _) ((by decide))
theorem TableRow.rgnInrangeQ (addr : Word) : TableRow.Statement (.rgnInrangeQ addr) := fun _ =>
  fixed_tw (row := (0x2A0000000000000000, 0xFF00000000FFFFFFFF)) (m1 := 0xFF) (m2 := 0x00000000) (m3 := 0xFFFFFFFF) (by decide) (by decide) (unused_zero _) ((by decide))
theorem TableRow.rgnR8T (addr : Word) : TableRow.Statement (.rgnR8T addr) := fun _ =>
  fixed_tw (row := (0x300000000000000000, 0xFF00000000FFFFFFFF)) (m1 := 0xFF) (m2 := 0x00000000) (m3 := 0xFFFFFFFF) (by decide) (by decide) (unused_zero _) ((by decide))
theorem TableRow.rgnR8S (addr : Word) : TableRow.Statement (.rgnR8S addr) := fun _ =>
  fixed_tw (row := (0x310000000000000000, 0xFF00000000FFFFFFFF)) (m1 := 0xFF) (m2 := 0x00000000) (m3 := 0xFFFFFFFF) (by decide) (by decide) (unused_zero _) ((by decide))
theorem TableRow.rgnR8Q (addr : Word) : TableRow.Statement (.rgnR8Q addr) := fun _ =>
  fixed_tw (row := (0x320000000000000000, 0xFF00000000FFFFFFFF)) (m1 := 0xFF) (m2 := 0x00000000) (m3 := 0xFFFFFFFF) (by decide) (by decide) (unused_zero _) ((by decide))
theorem TableRow.rgnR16T (addr : Word) : TableRow.Statement (.rgnR16T addr) := fun _ =>
  fixed_tw (row := (0x340000000000000000, 0xFF00000000FFFFFFFF)) (m1 := 0xFF) (m2 := 0x00000000) (m3 := 0xFFFFFFFF) (by decide) (by decide) (unused_zero _) ((by decide))
theorem TableRow.rgnR16S (addr : Word) : TableRow.Statement (.rgnR16S addr) := fun _ =>
  fixed_tw (row := (0x350000000000000000, 0xFF00000000FFFFFFFF)) (m1 := 0xFF) (m2 := 0x00000000) (m3 := 0xFFFFFFFF) (by decide) (by decide) (unused_zero _) ((by decide))
theorem TableRow.rgnR16Q (addr : Word) : TableRow.Statement (.rgnR16Q addr) := fun _ =>
  fixed_tw (row := (0x360000000000000000, 0xFF00000000FFFFFFFF)) (m1 := 0xFF) (m2 := 0x00000000) (m3 := 0xFFFFFFFF) (by decide) (by decide) (unused_zero _) ((by decide))
theorem TableRow.rgnW8T (addr : Word) (v : Byte) : TableRow.Statement (.rgnW8T addr v) := fun _ =>
  fixed_tw (row := (0x380000000000000000, 0xFF00000000FFFFFF00)) (m1 := 0xFF) (m2 := 0x00000000) (m3 := 0xFFFFFF00) (by decide) (by decide) (unused_zero _) (byteWord_unused _)
theorem TableRow.rgnW8S (addr : Word) (v : Byte) : TableRow.Statement (.rgnW8S addr v) := fun _ =>
  fixed_tw (row := (0x390000000000000000, 0xFF00000000FFFFFF00)) (m1 := 0xFF) (m2 := 0x00000000) (m3 := 0xFFFFFF00) (by decide) (by decide) (unused_zero _) (byteWord_unused _)
theorem TableRow.rgnW8Q (addr : Word) (v : Byte) : TableRow.Statement (.rgnW8Q addr v) := fun _ =>
  fixed_tw (row := (0x3A0000000000000000, 0xFF00000000FFFFFF00)) (m1 := 0xFF) (m2 := 0x00000000) (m3 := 0xFFFFFF00) (by decide) (by decide) (unused_zero _) (byteWord_unused _)
theorem TableRow.rgnW16T (addr : Word) (v : Half) : TableRow.Statement (.rgnW16T addr v) := fun _ =>
  fixed_tw (row := (0x3C0000000000000000, 0xFF00000000FFFF0000)) (m1 := 0xFF) (m2 := 0x00000000) (m3 := 0xFFFF0000) (by decide) (by decide) (unused_zero _) (halfWord_unused _)
theorem TableRow.rgnW16S (addr : Word) (v : Half) : TableRow.Statement (.rgnW16S addr v) := fun _ =>
  fixed_tw (row := (0x3D0000000000000000, 0xFF00000000FFFF0000)) (m1 := 0xFF) (m2 := 0x00000000) (m3 := 0xFFFF0000) (by decide) (by decide) (unused_zero _) (halfWord_unused _)
theorem TableRow.rgnW16Q (addr : Word) (v : Half) : TableRow.Statement (.rgnW16Q addr v) := fun _ =>
  fixed_tw (row := (0x3E0000000000000000, 0xFF00000000FFFF0000)) (m1 := 0xFF) (m2 := 0x00000000) (m3 := 0xFFFF0000) (by decide) (by decide) (unused_zero _) (halfWord_unused _)
theorem TableRow.pSetdir (p : Port) (m : Byte) : TableRow.Statement (.pSetdir p m) := fun _ =>
  fixed_tw (row := (0x500000000000000000, 0xFFFFFFFFFCFFFFFF00)) (m1 := 0xFF) (m2 := 0xFFFFFFFC) (m3 := 0xFFFFFF00) (by decide) (by decide) (portWord_unused _) (byteWord_unused _)
theorem TableRow.pWritetx (p : Port) (b : Byte) : TableRow.Statement (.pWritetx p b) := fun _ =>
  fixed_tw (row := (0x510000000000000000, 0xFFFFFFFFFCFFFFFF00)) (m1 := 0xFF) (m2 := 0xFFFFFFFC) (m3 := 0xFFFFFF00) (by decide) (by decide) (portWord_unused _) (byteWord_unused _)
theorem TableRow.pWriterx (p : Port) (b : Byte) : TableRow.Statement (.pWriterx p b) := fun _ =>
  fixed_tw (row := (0x520000000000000000, 0xFFFFFFFFFCFFFFFF00)) (m1 := 0xFF) (m2 := 0xFFFFFFFC) (m3 := 0xFFFFFF00) (by decide) (by decide) (portWord_unused _) (byteWord_unused _)
theorem TableRow.pRead (p : Port) : TableRow.Statement (.pRead p) := fun _ =>
  fixed_tw (row := (0x530000000000000000, 0xFFFFFFFFFCFFFFFFFF)) (m1 := 0xFF) (m2 := 0xFFFFFFFC) (m3 := 0xFFFFFFFF) (by decide) (by decide) (portWord_unused _) ((by decide))
theorem TableRow.pEnable (p : Port) (m : Byte) : TableRow.Statement (.pEnable p m) := fun _ =>
  fixed_tw (row := (0x540000000000000000, 0xFFFFFFFFFCFFFFFF00)) (m1 := 0xFF) (m2 := 0xFFFFFFFC) (m3 := 0xFFFFFF00) (by decide) (by decide) (portWord_unused _) (byteWord_unused _)
theorem TableRow.inject (vec : Byte) (lvl : Level) : TableRow.Statement (.inject vec lvl) := fun _ =>
  fixed_tw (row := (0x600000000000000000, 0xFFFFFFFFF8FFFFFF00)) (m1 := 0xFF) (m2 := 0xFFFFFFF8) (m3 := 0xFFFFFF00) (by decide) (by decide) (levelWord_unused _) (byteWord_unused _)
theorem TableRow.haspend (vec : Byte) (lvl : Level) : TableRow.Statement (.haspend vec lvl) := fun _ =>
  fixed_tw (row := (0x610000000000000000, 0xFFFFFFFFF8FFFFFF00)) (m1 := 0xFF) (m2 := 0xFFFFFFF8) (m3 := 0xFFFFFF00) (by decide) (by decide) (levelWord_unused _) (byteWord_unused _)
theorem TableRow.ack (lvl : Level) : TableRow.Statement (.ack lvl) := fun _ =>
  fixed_tw (row := (0x620000000000000000, 0xFFFFFFFFF8FFFFFFFF)) (m1 := 0xFF) (m2 := 0xFFFFFFF8) (m3 := 0xFFFFFFFF) (by decide) (by decide) (levelWord_unused _) ((by decide))
theorem TableRow.sysStep : TableRow.Statement (.sysStep) := fun _ =>
  fixed_tw (row := (0x700000000000000000, 0xFFFFFFFFFFFFFFFFFF)) (m1 := 0xFF) (m2 := 0xFFFFFFFF) (m3 := 0xFFFFFFFF) (by decide) (by decide) ((by decide)) ((by decide))
theorem TableRow.sysExec (delta : Word) : TableRow.Statement (.sysExec delta) := fun _ =>
  fixed_tw (row := (0x710000000000000000, 0xFFFFFFFFFF00000000)) (m1 := 0xFF) (m2 := 0xFFFFFFFF) (m3 := 0x00000000) (by decide) (by decide) ((by decide)) (unused_zero _)
theorem TableRow.sysReset : TableRow.Statement (.sysReset) := fun _ =>
  fixed_tw (row := (0x720000000000000000, 0xFFFFFFFFFFFFFFFFFF)) (m1 := 0xFF) (m2 := 0xFFFFFFFF) (m3 := 0xFFFFFFFF) (by decide) (by decide) ((by decide)) ((by decide))
theorem TableRow.illegal (opcode : Half) : TableRow.Statement (.illegal opcode) := fun _ =>
  fixed_tw (row := (0x730000000000000000, 0xFFFFFFFFFFFFFF0000)) (m1 := 0xFF) (m2 := 0xFFFFFFFF) (m3 := 0xFFFF0000) (by decide) (by decide) ((by decide)) (halfWord_unused _)
theorem TableRow.resethook : TableRow.Statement (.resethook) := fun _ =>
  fixed_tw (row := (0x740000000000000000, 0xFFFFFFFFFFFFFFFFFF)) (m1 := 0xFF) (m2 := 0xFFFFFFFF) (m3 := 0xFFFFFFFF) (by decide) (by decide) ((by decide)) ((by decide))
theorem TableRow.resetpc : TableRow.Statement (.resetpc) := fun _ =>
  fixed_tw (row := (0x750000000000000000, 0xFFFFFFFFFFFFFFFFFF)) (m1 := 0xFF) (m2 := 0xFFFFFFFF) (m3 := 0xFFFFFFFF) (by decide) (by decide) ((by decide)) ((by decide))
theorem TableRow.resetsp : TableRow.Statement (.resetsp) := fun _ =>
  fixed_tw (row := (0x760000000000000000, 0xFFFFFFFFFFFFFFFFFF)) (m1 := 0xFF) (m2 := 0xFFFFFFFF) (m3 := 0xFFFFFFFF) (by decide) (by decide) ((by decide)) ((by decide))
theorem TableRow.tExec (delta : Word) : TableRow.Statement (.tExec delta) := fun _ =>
  fixed_tw (row := (0x780000000000000000, 0xFFFFFFFFFF00000000)) (m1 := 0xFF) (m2 := 0xFFFFFFFF) (m3 := 0x00000000) (by decide) (by decide) ((by decide)) (unused_zero _)
theorem TableRow.sExec (delta : Word) : TableRow.Statement (.sExec delta) := fun _ =>
  fixed_tw (row := (0x790000000000000000, 0xFFFFFFFFFF00000000)) (m1 := 0xFF) (m2 := 0xFFFFFFFF) (m3 := 0x00000000) (by decide) (by decide) ((by decide)) (unused_zero _)
theorem TableRow.qExec (delta : Word) : TableRow.Statement (.qExec delta) := fun _ =>
  fixed_tw (row := (0x7A0000000000000000, 0xFFFFFFFFFF00000000)) (m1 := 0xFF) (m2 := 0xFFFFFFFF) (m3 := 0x00000000) (by decide) (by decide) ((by decide)) (unused_zero _)
theorem TableRow.ddrgp (acc : RegAccess) : TableRow.Statement (.ddrgp acc) := fun h =>
  fixed_register (row := (0xFF906, 0xFFFFF)) (m := 0xFFFFF) (by decide) (by decide) (.inl h)
theorem TableRow.portgp (acc : RegAccess) : TableRow.Statement (.portgp acc) := fun h =>
  fixed_register (row := (0xFF907, 0xFFFFF)) (m := 0xFFFFF) (by decide) (by decide) (.inl h)
theorem TableRow.tcnt (acc : RegAccess) : TableRow.Statement (.tcnt acc) := fun _ =>
  fixed_register (row := (0xFF90A, 0xFFFFE)) (m := 0xFFFFE) (by decide) (by decide) (.inr (by decide))
theorem TableRow.toc1 (acc : RegAccess) : TableRow.Statement (.toc1 acc) := fun _ =>
  fixed_register (row := (0xFF914, 0xFFFFE)) (m := 0xFFFFE) (by decide) (by decide) (.inr (by decide))
theorem TableRow.toc2 (acc : RegAccess) : TableRow.Statement (.toc2 acc) := fun _ =>
  fixed_register (row := (0xFF916, 0xFFFFE)) (m := 0xFFFFE) (by decide) (by decide) (.inr (by decide))
theorem TableRow.toc3 (acc : RegAccess) : TableRow.Statement (.toc3 acc) := fun _ =>
  fixed_register (row := (0xFF918, 0xFFFFE)) (m := 0xFFFFE) (by decide) (by decide) (.inr (by decide))
theorem TableRow.toc4 (acc : RegAccess) : TableRow.Statement (.toc4 acc) := fun _ =>
  fixed_register (row := (0xFF91A, 0xFFFFE)) (m := 0xFFFFE) (by decide) (by decide) (.inr (by decide))
theorem TableRow.tmsk (acc : RegAccess) : TableRow.Statement (.tmsk acc) := fun _ =>
  fixed_register (row := (0xFF920, 0xFFFFE)) (m := 0xFFFFE) (by decide) (by decide) (.inr (by decide))
theorem TableRow.tflg (acc : RegAccess) : TableRow.Statement (.tflg acc) := fun _ =>
  fixed_register (row := (0xFF922, 0xFFFFE)) (m := 0xFFFFE) (by decide) (by decide) (.inr (by decide))
theorem TableRow.syncr (acc : RegAccess) : TableRow.Statement (.syncr acc) := fun _ =>
  fixed_register (row := (0xFFA04, 0xFFFFE)) (m := 0xFFFFE) (by decide) (by decide) (.inr (by decide))
theorem TableRow.porte0 (acc : RegAccess) : TableRow.Statement (.porte0 acc) := fun h =>
  fixed_register (row := (0xFFA11, 0xFFFFF)) (m := 0xFFFFF) (by decide) (by decide) (.inl h)
theorem TableRow.porte1 (acc : RegAccess) : TableRow.Statement (.porte1 acc) := fun h =>
  fixed_register (row := (0xFFA13, 0xFFFFF)) (m := 0xFFFFF) (by decide) (by decide) (.inl h)
theorem TableRow.ddre (acc : RegAccess) : TableRow.Statement (.ddre acc) := fun h =>
  fixed_register (row := (0xFFA15, 0xFFFFF)) (m := 0xFFFFF) (by decide) (by decide) (.inl h)
theorem TableRow.pepar (acc : RegAccess) : TableRow.Statement (.pepar acc) := fun h =>
  fixed_register (row := (0xFFA17, 0xFFFFF)) (m := 0xFFFFF) (by decide) (by decide) (.inl h)
theorem TableRow.portf0 (acc : RegAccess) : TableRow.Statement (.portf0 acc) := fun h =>
  fixed_register (row := (0xFFA19, 0xFFFFF)) (m := 0xFFFFF) (by decide) (by decide) (.inl h)
theorem TableRow.portf1 (acc : RegAccess) : TableRow.Statement (.portf1 acc) := fun h =>
  fixed_register (row := (0xFFA1B, 0xFFFFF)) (m := 0xFFFFF) (by decide) (by decide) (.inl h)
theorem TableRow.ddrf (acc : RegAccess) : TableRow.Statement (.ddrf acc) := fun h =>
  fixed_register (row := (0xFFA1D, 0xFFFFF)) (m := 0xFFFFF) (by decide) (by decide) (.inl h)
theorem TableRow.pfpar (acc : RegAccess) : TableRow.Statement (.pfpar acc) := fun h =>
  fixed_register (row := (0xFFA1F, 0xFFFFF)) (m := 0xFFFFF) (by decide) (by decide) (.inl h)
theorem TableRow.picr (acc : RegAccess) : TableRow.Statement (.picr acc) := fun _ =>
  fixed_register (row := (0xFFA22, 0xFFFFE)) (m := 0xFFFFE) (by decide) (by decide) (.inr (by decide))
theorem TableRow.pitr (acc : RegAccess) : TableRow.Statement (.pitr acc) := fun _ =>
  fixed_register (row := (0xFFA24, 0xFFFFE)) (m := 0xFFFFE) (by decide) (by decide) (.inr (by decide))

end Sys2Proof.Laws
end

