-- ==== Sys2Proof/Tests/Slice0.lean ====
section
/-! SUPPORT. Tests/Slice0.lean: the model's own tests. Expected values are the spec's (`95_test_vectors.md`, the examples in
the rules) or computed by hand from the rule named; each test is about one step. -/

namespace Sys2Proof.Tests

open Sys2Proof.Machine

/-! ### Helpers -/

/-- The test vectors' configuration: the default map, 4 MHz, two active channels, base `0x44`, level 4. -/
def demoCfg : Cfg := { Cfg.default with extClockHz := 4000000, tVecBase := 0x44, tLevel := 4, resetPc := 0x400, resetSp := 0x8000 }

/-- The state right after `RESET`. -/
def demo : State := State.boot demoCfg

/-- A projection of the state an operation leaves, if it completes. -/
def after {α : Type} (i : Instr) (s : State) (f : State → α) : Option α :=
  match exec i s with
  | .next t => some (f t)
  | _ => none

/-! ### WellFormed smoke: an ill-formed term for each check -/

theorem test_wf_refuses_word_access_of_byte_register :
    (Instr.ddrgp .read16).wf = false ∧ (Instr.portgp .read16).wf = false ∧ (Instr.porte0 .read16).wf = false ∧
    (Instr.porte1 (.write16 0)).wf = false ∧ (Instr.ddre (.write16 0)).wf = false ∧ (Instr.pepar .read16).wf = false ∧
    (Instr.portf0 .read16).wf = false ∧ (Instr.portf1 .read16).wf = false ∧ (Instr.ddrf .read16).wf = false ∧
    (Instr.pfpar (.write16 0)).wf = false := by decide

theorem test_wf_refuses_second_lane_of_byte_register :
    (Instr.ddrgp (.read8 true)).wf = false ∧ (Instr.portgp (.write8 true 0)).wf = false ∧
    (Instr.porte0 (.read8 true)).wf = false ∧ (Instr.porte1 (.write8 true 0)).wf = false ∧
    (Instr.ddre (.read8 true)).wf = false ∧ (Instr.pepar (.write8 true 0)).wf = false ∧
    (Instr.portf0 (.read8 true)).wf = false ∧ (Instr.portf1 (.write8 true 0)).wf = false ∧
    (Instr.ddrf (.read8 true)).wf = false ∧ (Instr.pfpar (.write8 true 0)).wf = false := by decide

theorem test_wf_admits_both_widths_of_word_register :
    (Instr.tcnt .read16).wf = true ∧ (Instr.toc4 (.write8 true 0)).wf = true := by decide

theorem test_engine_run_too_long : (EngineRun.mk [] (2 ^ 31)).wf = false ∧ (EngineRun.mk [] (2 ^ 31 - 1)).wf = true := by
  decide

theorem test_cfg_default_ok : demoCfg.WF := by decide
theorem test_cfg_odd_base : ¬ { demoCfg with tBase := 0xFF901 }.WF := by decide
theorem test_cfg_window_overflows : ¬ { demoCfg with qBase := 0xFFF00 }.WF := by decide
theorem test_cfg_windows_overlap : ¬ { demoCfg with sBase := 0xFF920 }.WF := by decide
theorem test_cfg_word_register_at_odd_offset : ¬ { demoCfg with tTmsk := 0x25 }.WF := by decide
theorem test_cfg_timer_registers_overlap : ¬ { demoCfg with tPortgp := 0x06 }.WF := by decide
theorem test_cfg_register_outside_window : ¬ { demoCfg with tTflg := 0x40 }.WF := by decide
theorem test_cfg_system_registers_overlap : ¬ { demoCfg with sDdre := 0x13 }.WF := by decide
theorem test_cfg_system_register_outside_window : ¬ { demoCfg with sPfpar := 0x80 }.WF := by decide
theorem test_cfg_no_data_address : ¬ { demoCfg with sPorteData := [] }.WF := by decide
theorem test_cfg_data_addresses_unsorted : ¬ { demoCfg with sPortfData := [0x1B, 0x19] }.WF := by decide
theorem test_cfg_field_outside_register : ¬ { demoCfg with syncrYLo := 11 }.WF := by decide
theorem test_cfg_level_field_outside_register : ¬ { demoCfg with picrLevelLo := 14 }.WF := by decide
theorem test_cfg_level_field_wider_than_a_level : ¬ { demoCfg with picrLevelWidth := 4 }.WF := by decide
theorem test_cfg_vector_field_wider_than_a_vector : ¬ { demoCfg with picrVectorWidth := 9 }.WF := by decide

/-- P8: other widths are accepted and take effect: of `0x07C9` a two-bit level is 3 and a six-bit vector `0x09`. -/
theorem test_cfg_narrow_level_and_vector :
    { demoCfg with picrLevelWidth := 2, picrVectorWidth := 6 }.WF ∧
    picrLevel { demoCfg with picrLevelWidth := 2, picrVectorWidth := 6 } 0x07C9 = 3 ∧
    picrVector { demoCfg with picrLevelWidth := 2, picrVectorWidth := 6 } 0x07C9 = 0x09 := by decide
theorem test_cfg_channel_bits_shared : ¬ { demoCfg with ocBit := #v[11, 12, 12, 14] }.WF := by decide
theorem test_cfg_channel_bit_outside_register : ¬ { demoCfg with ocBit := #v[11, 12, 13, 16] }.WF := by decide
theorem test_cfg_no_clock : ¬ { demoCfg with extClockHz := 0 }.WF := by decide
theorem test_cfg_sentinel_is_a_vector : ¬ { demoCfg with autovector := 0xFF }.WF := by decide
theorem test_cfg_target_image_not_ones : ¬ { demoCfg with imageT := [] }.WF := by decide
theorem test_cfg_image_load_too_large :
    ¬ { demoCfg with imageS := [(0x04, 0xFF), (0x22, 0x07), (0x24, 0xFF), (0x25, 0xFF)], pitrModWidth := 16 }.WF := by
  decide

/-! ### Decoding: words written out from R60, R61 and R64 (V-E1 among them) -/

theorem test_decode_bus :
    decodeTableWord 72 0x01000FF91500000000 = some (.read8 0xFF915) ∧
    decodeTableWord 72 0x02000FF90A00000000 = some (.read16 0xFF90A) ∧
    decodeTableWord 72 0x04FFFFFFFE00000000 = some (.read32 0xFFFFFFFE) ∧
    decodeTableWord 72 0x11000FFA15000000F0 = some (.write8 0xFFA15 0xF0) ∧
    decodeTableWord 72 0x12000FF91400000100 = some (.write16 0xFF914 0x0100) ∧
    decodeTableWord 72 0x14000FFA2206400002 = some (.write32 0xFFA22 0x06400002) ∧
    decodeTableWord 72 0x22000FF90A00000000 = some (.fetch16 0xFF90A) ∧
    decodeTableWord 72 0x240000100000000000 = some (.fetch32 0x1000) := by decide

theorem test_decode_region_reads :
    decodeTableWord 72 0x28000FF93F00000000 = some (.rgnInrangeT 0xFF93F) ∧
    decodeTableWord 72 0x29000FFA7F00000000 = some (.rgnInrangeS 0xFFA7F) ∧
    decodeTableWord 72 0x2A000FFDFF00000000 = some (.rgnInrangeQ 0xFFDFF) ∧
    decodeTableWord 72 0x30000FF91400000000 = some (.rgnR8T 0xFF914) ∧
    decodeTableWord 72 0x31000FFA1100000000 = some (.rgnR8S 0xFFA11) ∧
    decodeTableWord 72 0x32000FFC0000000000 = some (.rgnR8Q 0xFFC00) ∧
    decodeTableWord 72 0x34000FF91400000000 = some (.rgnR16T 0xFF914) ∧
    decodeTableWord 72 0x35000FFA1000000000 = some (.rgnR16S 0xFFA10) ∧
    decodeTableWord 72 0x36000FFDFE00000000 = some (.rgnR16Q 0xFFDFE) := by decide

theorem test_decode_region_writes :
    decodeTableWord 72 0x38000FF91400000080 = some (.rgnW8T 0xFF914 0x80) ∧
    decodeTableWord 72 0x39000FFA15000000F0 = some (.rgnW8S 0xFFA15 0xF0) ∧
    decodeTableWord 72 0x3A000FFC0100000001 = some (.rgnW8Q 0xFFC01 0x01) ∧
    decodeTableWord 72 0x3C000FF91400000100 = some (.rgnW16T 0xFF914 0x0100) ∧
    decodeTableWord 72 0x3D000FFA0400008000 = some (.rgnW16S 0xFFA04 0x8000) ∧
    decodeTableWord 72 0x3E000FFDFE0000A55A = some (.rgnW16Q 0xFFDFE 0xA55A) := by decide

theorem test_decode_ports :
    decodeTableWord 72 0x5000000001000000F0 = some (.pSetdir .e 0xF0) ∧
    decodeTableWord 72 0x510000000200000081 = some (.pWritetx .f 0x81) ∧
    decodeTableWord 72 0x52000000000000005A = some (.pWriterx .gp 0x5A) ∧
    decodeTableWord 72 0x530000000300000000 = some (.pRead .qs) ∧
    decodeTableWord 72 0x54000000010000003C = some (.pEnable .e 0x3C) := by decide

theorem test_decode_interrupts :
    decodeTableWord 72 0x600000000600000040 = some (.inject 0x40 6) ∧
    decodeTableWord 72 0x610000000400000044 = some (.haspend 0x44 4) ∧
    decodeTableWord 72 0x620000000700000000 = some (.ack 7) := by decide

theorem test_decode_system :
    decodeTableWord 72 0x700000000000000000 = some .sysStep ∧
    decodeTableWord 72 0x710000000000000005 = some (.sysExec 5) ∧
    decodeTableWord 72 0x720000000000000000 = some .sysReset ∧
    decodeTableWord 72 0x730000000000004AFC = some (.illegal 0x4AFC) ∧
    decodeTableWord 72 0x740000000000000000 = some .resethook ∧
    decodeTableWord 72 0x750000000000000000 = some .resetpc ∧
    decodeTableWord 72 0x760000000000000000 = some .resetsp ∧
    decodeTableWord 72 0x780000000080000000 = some (.tExec 0x80000000) ∧
    decodeTableWord 72 0x790000000000000005 = some (.sExec 5) ∧
    decodeTableWord 72 0x7A00000000000003E8 = some (.qExec 1000) := by decide

theorem test_decode_timer_registers :
    decodeTableWord 24 0xFF906 = some (.ddrgp (.read8 false)) ∧ decodeTableWord 24 0xFF907 = some (.portgp (.read8 false)) ∧
    decodeTableWord 24 0xFF90A = some (.tcnt (.read8 false)) ∧ decodeTableWord 24 0xFF90B = some (.tcnt (.read8 true)) ∧
    decodeTableWord 24 0xFF914 = some (.toc1 (.read8 false)) ∧ decodeTableWord 24 0xFF917 = some (.toc2 (.read8 true)) ∧
    decodeTableWord 24 0xFF918 = some (.toc3 (.read8 false)) ∧ decodeTableWord 24 0xFF91B = some (.toc4 (.read8 true)) ∧
    decodeTableWord 24 0xFF920 = some (.tmsk (.read8 false)) ∧ decodeTableWord 24 0xFF923 = some (.tflg (.read8 true)) := by
  decide

theorem test_decode_system_registers :
    decodeTableWord 24 0xFFA04 = some (.syncr (.read8 false)) ∧ decodeTableWord 24 0xFFA11 = some (.porte0 (.read8 false)) ∧
    decodeTableWord 24 0xFFA13 = some (.porte1 (.read8 false)) ∧ decodeTableWord 24 0xFFA15 = some (.ddre (.read8 false)) ∧
    decodeTableWord 24 0xFFA17 = some (.pepar (.read8 false)) ∧ decodeTableWord 24 0xFFA19 = some (.portf0 (.read8 false)) ∧
    decodeTableWord 24 0xFFA1B = some (.portf1 (.read8 false)) ∧ decodeTableWord 24 0xFFA1D = some (.ddrf (.read8 false)) ∧
    decodeTableWord 24 0xFFA1F = some (.pfpar (.read8 false)) ∧ decodeTableWord 24 0xFFA23 = some (.picr (.read8 true)) ∧
    decodeTableWord 24 0xFFA24 = some (.pitr (.read8 false)) := by decide

/-- The kind and data bits of a register-access word (log entry 3), and the masked-off address bits (R165). -/
theorem test_decode_register_accesses :
    decode (.reg 0x00F001000FFA15) = .ok (.ddre (.write8 false 0xF0)) ∧
    decode (.reg 0x000002123FF90A) = .ok (.tcnt .read16) ∧
    decode (.reg 0x010003000FF914) = .ok (.toc1 (.write16 0x0100)) := ⟨rfl, rfl, rfl⟩

/-- V-E1's illegal words, and the register words that are none. -/
theorem test_decode_refuses :
    decode (.tw 0x000000000000000000) = .error .illegalSelector ∧
    decode (.tw 0x2B000FF90000000000) = .error .illegalSelector ∧
    decode (.tw 0x11000FF91400000100) = .error .unusedBitSet ∧
    decode (.tw 0x620000000800000000) = .error .unusedBitSet ∧
    decode (.tw 0x700000000100000000) = .error .unusedBitSet ∧
    decode (.reg 0x000000000FF908) = .error .noRegister ∧
    decode (.reg 0x000002000FF906) = .error .badAccess ∧
    decode (.reg 0x000003000FF90B) = .error .badAccess ∧
    decode (.reg 0x000100000FF906) = .error .unusedBitSet ∧
    decode (.reg 0x000004000FF90A) = .error .badAccess := ⟨rfl, rfl, rfl, rfl, rfl, rfl, rfl, rfl, rfl, rfl⟩

/-! ### Bus operations -/

/-- V-D1, V-D2. -/
theorem test_read8 : after (.read8 0x00FFF915) demo (·.result) = some (.byte 0xFF) := by decide
theorem test_read8_unclaimed : after (.read8 0xFF940) demo (·.result) = some (.byte 0x00) := by decide
/-- V-R3: `0x12345 >> 2 = 0x48D1`. -/
theorem test_read16_counter : after (.read16 0xFF90A) { demo with cycles := 0x12345 } (·.result) = some (.half 0x48D1) := by
  decide
/-- V-D4. -/
theorem test_read16_odd : exec (.read16 0xFF915) demo = .refused .misaligned := by rfl
/-- V-D3: the second half wraps to address 0. -/
theorem test_read32_wraps : after (.read32 0xFFFFFFFE) demo (·.result) = some (.word 0) := by decide
/-- V-D3: first half unclaimed, second the first word of the clock/system window. -/
theorem test_read32_across : after (.read32 0xFF9FE) (demo.setReg16 .sys 0 0x1234) (·.result) = some (.word 0x1234) := by
  decide
/-- V-P4. -/
theorem test_write8_direction : after (.write8 0xFFA15 0xFF) demo (fun t => (t.port .e, t.out)) =
    some (⟨0xFF, 0xFF, 0, 0⟩, [.dirChange .e 0xFF]) := by decide
theorem test_write8_unclaimed : exec (.write8 0xFF8FF 0xFF) demo = .next (demo.setResult .none) := by rfl
/-- V-P5: the data byte is masked by the new direction. -/
theorem test_write16_direction_then_data : after (.write16 0xFF906 0xF0FF) demo (fun t => (t.port .gp, t.out)) =
    some (⟨0xF0, 0xFF, 0xF0, 1⟩, [.dirChange .gp 0xF0, .txWrite .gp 0xF0]) := by decide
theorem test_write16_odd : exec (.write16 0xFFA23 0) demo = .refused .misaligned := by rfl
/-- R172's example: `PICR` and `PITR` in one write. -/
theorem test_write32_periodic : after (.write32 0xFFA22 0x06400002) demo (fun t => (t.pitLoad, t.pitCur)) = some (32, 32) := by
  decide
/-- V-D3: the second half is dropped at unclaimed `0xFF940`. -/
theorem test_write32_past_window : after (.write32 0xFF93E 0xAAAABBBB) demo (fun t => (t.storT.getLast?, t.storS)) =
    some (some (0x3F, 0xAA), []) := by decide
/-- V-D5. -/
theorem test_fetch16 : after (.fetch16 0xFF90A) { demo with cycles := 0x100 } (·.result) = some (.half 0x0040) := by decide
theorem test_fetch16_odd : exec (.fetch16 0xFFC01) demo = .refused .misaligned := by rfl
theorem test_fetch32 : after (.fetch32 0xFF914) demo (·.result) = some (.word 0xFFFFFFFF) := by decide

/-! ### Region operations -/

/-- V-R2. -/
theorem test_inrange_timer_end : after (.rgnInrangeT 0xFF93F) demo (·.result) = some (.bit true) ∧
    after (.rgnInrangeT 0xFF940) demo (·.result) = some (.bit false) := by decide
theorem test_inrange_not_masked : after (.rgnInrangeT 0x1FF900) demo (·.result) = some (.bit false) := by decide
theorem test_inrange_sys_end : after (.rgnInrangeS 0xFFA7F) demo (·.result) = some (.bit true) ∧
    after (.rgnInrangeS 0xFFA80) demo (·.result) = some (.bit false) := by decide
theorem test_inrange_serial_end : after (.rgnInrangeQ 0xFFDFF) demo (·.result) = some (.bit true) ∧
    after (.rgnInrangeQ 0xFFE00) demo (·.result) = some (.bit false) := by decide
/-- V-R3: the byte lanes of the counter. -/
theorem test_r8_timer : after (.rgnR8T 0xFF90B) { demo with cycles := 0x12345 } (·.result) = some (.byte 0xD1) := by decide
/-- V-P6: a read hook is asked, whatever it answers. -/
theorem test_r8_sys_hook : after (.rgnR8S 0xFFA11) { demo with hookE := .custom 7 } (·.result) =
    some (.byte (Config.readHook 7 0x00)) := by rfl
theorem test_r8_serial_outside : exec (.rgnR8Q 0xFFBFF) demo = .refused .outOfRange := by rfl
theorem test_r16_timer : after (.rgnR16T 0xFF914) demo (·.result) = some (.half 0xFFFF) := by decide
/-- V-R4: high lane storage, low lane the port. -/
theorem test_r16_sys_port_lane : after (.rgnR16S 0xFFA10)
    ((demo.setByte .sys 0x10 0x5C).setPort .e { demo.portE with data := 0xA7 }) (·.result) = some (.half 0x5CA7) := by decide
theorem test_r16_serial : after (.rgnR16Q 0xFFDFE) (demo.setReg16 .serial 0x1FE 0xA55A) (·.result) = some (.half 0xA55A) := by
  decide
/-- V-R6: a half-register write acts at once. -/
theorem test_w8_timer_half_target : after (.rgnW8T 0xFF914 0x00) { demo with acc := #v[0x500, 0x500, 0, 0] }
    (fun t => (t.reg16 .timer 0x14, t.acc)) = some (0x00FF, #v[-0x3FB00, 0x500, 0, 0]) := by decide
theorem test_w8_sys_direction : after (.rgnW8S 0xFFA15 0xF0) demo (fun t => (t.portE.direction, t.out)) =
    some (0xF0, [.dirChange .e 0xF0]) := by decide
theorem test_w8_serial : after (.rgnW8Q 0xFFDFF 0x5A) demo (·.storQ) = some [(0x1FF, 0x5A)] := by decide
theorem test_w16_timer_counter_dropped : exec (.rgnW16T 0xFF90A 0xFFFF) demo = .next (demo.setResult .none) := by rfl
theorem test_w16_sys_odd : exec (.rgnW16S 0xFFA23 0) demo = .refused .misaligned := by rfl
theorem test_w16_serial_order : after (.rgnW16Q 0xFFDFE 0xA55A) demo (·.storQ) = some [(0x1FE, 0xA5), (0x1FF, 0x5A)] := by
  decide

/-! ### Ports -/

/-- R91's example. -/
theorem test_writetx : after (.pWritetx .e 0xFF) { demo with portE := ⟨0xF0, 0x3C, 0x00, 5⟩ } (fun t => (t.portE, t.out)) =
    some (⟨0xF0, 0x3C, 0x30, 6⟩, [.txWrite .e 0x30]) := by decide
/-- V-P1: all inputs. -/
theorem test_writetx_inputs : after (.pWritetx .f 0xFF) demo (fun t => (t.portF, t.out)) =
    some (⟨0x00, 0xFF, 0x00, 1⟩, [.txWrite .f 0x00]) := by decide
/-- R92's example. -/
theorem test_writerx : after (.pWriterx .e 0xFF) { demo with portE := ⟨0xF0, 0x3C, 0x30, 1⟩ } (fun t => (t.portE, t.out)) =
    some (⟨0xF0, 0x3C, 0x3C, 1⟩, []) := by decide
theorem test_setdir_keeps_data : after (.pSetdir .gp 0xFF) { demo with portGp := ⟨0xFF, 0xFF, 0x5A, 0⟩ }
    (fun t => (t.portGp, t.out)) = some (⟨0xFF, 0xFF, 0x5A, 0⟩, [.dirChange .gp 0xFF]) := by decide
theorem test_pread : after (.pRead .qs) { demo with portQs := ⟨0x01, 0x00, 0xA5, 1⟩ } (·.result) = some (.byte 0xA5) := by
  decide
theorem test_penable : after (.pEnable .e 0x0F) demo (fun t => (t.portE, t.out)) = some (⟨0, 0x0F, 0, 0⟩, []) := by decide

/-! ### Interrupts -/

/-- V-I5: below the current request level. -/
theorem test_inject_lower : after (.inject 0x40 3)
    { demo with queue := #v[[], [], [], [], [], [0x50], [], []], irq := 5 } (fun t => (t.queue, t.irq, t.out)) =
    some (#v[[], [], [], [0x40], [], [0x50], [], []], 5, [.irqLine 5]) := by decide
/-- V-I3: level 0 is never scanned. -/
theorem test_inject_level_zero : after (.inject 0x99 0) demo (fun t => (t.queue[0], t.irq, t.out)) =
    some ([0x99], 0, [.irqLine 0]) := by decide
/-- V-I4. -/
theorem test_haspend : after (.haspend 0x40 3) { demo with queue := #v[[], [], [], [0x40], [], [], [], []], irq := 3 }
    (·.result) = some (.bit true) ∧
    after (.haspend 0x40 5) { demo with queue := #v[[], [], [], [0x40], [], [], [], []], irq := 3 } (·.result) =
      some (.bit false) := by decide
/-- E5: after acknowledging level 5 the line reflects level 3. -/
theorem test_ack : after (.ack 5) { demo with queue := #v[[], [], [], [0x40], [], [0x50], [], []], irq := 5 }
    (fun t => (t.result, t.queue, t.irq, t.out)) =
    some (.word 0x50, #v[[], [], [], [0x40], [], [], [], []], 3, [.irqLine 0, .irqLine 3]) := by decide
/-- V-I2. -/
theorem test_ack_empty : exec (.ack 7) demo = .next (demo.setResult (.word 0xFFFFFFFF)) := by rfl

/-! ### Exec steps -/

/-- R118's example: target `0x400`, mask 1: the channel finishes and raises `0x44` at level 4. -/
theorem test_texec_finishes : after (.tExec 1)
    { (demo.setReg16 .timer 0x14 0x0100).setReg16 .timer 0x20 0x0800 with acc := #v[0x3FF, 0, 0, 0] }
    (fun t => (t.acc, t.reg16 .timer 0x22, t.queue[4], t.irq, t.out)) =
    some (#v[0x400, 1, 0, 0], 0x0800, [0x44], 4, [.irqLine 4]) := by decide
/-- V-T7: two channels in one step, ascending. -/
theorem test_texec_two_channels : after (.tExec 0x10)
    (((demo.setReg16 .timer 0x16 2).setReg16 .timer 0x14 3).setReg16 .timer 0x20 0x1800) (fun t => (t.queue[4], t.out)) =
    some ([0x44, 0x45], [.irqLine 4, .irqLine 4]) := by decide
/-- V-C3: `2 - 5 = -3` fires and reloads to 29. -/
theorem test_sexec_fires : after (.sExec 5)
    { (demo.setReg16 .sys 0x22 0x0640).setReg16 .sys 0x24 2 with pitLoad := 32, pitCur := 2 }
    (fun t => (t.pitCur, t.queue[6], t.irq)) = some (29, [0x40], 6) := by decide
/-- V-C5: still at or below zero after one reload; the duplicate is suppressed. -/
theorem test_sexec_once_per_step : after (.sExec 0)
    { (demo.setReg16 .sys 0x22 0x0640).setReg16 .sys 0x24 2 with
      pitLoad := 32, pitCur := -36, queue := #v[[], [], [], [], [], [], [0x40], []], irq := 6 }
    (fun t => (t.pitCur, t.queue[6], t.out)) = some (-4, [0x40], []) := by decide
theorem test_qexec : exec (.qExec 1000) demo = .next (demo.setResult .none) := by rfl
theorem test_exec_order : after (.sysExec 5)
    { ((((demo.setReg16 .timer 0x14 0).setReg16 .timer 0x20 0x0800).setReg16 .sys 0x22 0x0440).setReg16 .sys 0x24 2) with
      pitLoad := 32, pitCur := 2 } (fun t => (t.queue[4], t.cycles)) = some ([0x44, 0x40], 0) := by decide
theorem test_exec_too_long : exec (.sysExec 0x80000000) demo = .refused .i32Range := by rfl
/-- R123. -/
theorem test_texec_range : exec (.tExec 1) { demo with acc := #v[0, 0x7FFFFFFF, 0, 0] } = .refused .i32Range := by rfl
/-- V-T9: the counter wraps; all four vectors. -/
theorem test_texec_legacy : after (.tExec 4)
    { demo with cfg := { demoCfg with variant := .legacy }, cycles := 0x40000, prevTcnt := 0xFFFF }
    (fun t => (t.queue[4], t.prevTcnt, t.storT)) = some ([0x44, 0x45, 0x46, 0x47], 0, []) := by decide

/-! ### System operations -/

/-- R180's example, and a nested write whose result the engine gets before `cycles` advances. -/
theorem test_step_idle : after .sysStep { demo with engine := [⟨[], 12⟩] } (fun t => (t.cycles, t.acc, t.engine)) =
    some (12, #v[12, 12, 0, 0], []) := by decide
theorem test_step_nested : after .sysStep
    { demo with cycles := 8, engine := [⟨[.write16 0xFF930 0xBEEF, .read16 0xFF930, .read16 0xFF90A], 4⟩] }
    (fun t => (t.engineResults, t.cycles)) = some ([.none, .half 0xBEEF, .half 2], 12) := by decide
/-- R182's example. -/
theorem test_reset : after .sysReset
    { demo with storT := [(0x14, 0x01)], cycles := 99, queue := #v[[], [], [], [1], [], [], [], []], irq := 3, out := [.irqLine 3] }
    (fun t => (t.reg16 .timer 0x14, t.cycles, t.queue[3], t.out)) = some (0xFFFF, 0, [], []) := by decide
theorem test_illegal : after (.illegal 0x4AFC) demo (·.result) = some (.action (Config.illegalPolicy 0x4AFC)) := by rfl
theorem test_resethook : exec .resethook demo = .next (demo.setResult .none) := by rfl
theorem test_resetpc : after .resetpc demo (·.result) = some (.word 0x400) := by decide
theorem test_resetsp : after .resetsp demo (·.result) = some (.word 0x8000) := by decide

/-! ### Registers by name -/

theorem test_ddrgp : after (.ddrgp (.write8 false 0x81)) demo (fun t => (t.portGp.direction, t.storT)) =
    some (0x81, [(0x06, 0x81)]) := by decide
theorem test_portgp : after (.portgp (.write8 false 0xFF)) { demo with portGp := ⟨0x0F, 0xFF, 0, 0⟩ }
    (fun t => (t.portGp, t.storT)) = some (⟨0x0F, 0xFF, 0x0F, 1⟩, [(0x07, 0xFF)]) := by decide
/-- R110's examples. -/
theorem test_tcnt : after (.tcnt .read16) { demo with cycles := 0x3FFFF } (·.result) = some (.half 0xFFFF) ∧
    after (.tcnt .read16) { demo with cycles := 0x40000 } (·.result) = some (.half 0) := by decide
theorem test_tcnt_write : exec (.tcnt (.write16 0xFFFF)) demo = .next (demo.setResult .none) := by rfl
/-- R115's example. -/
theorem test_toc1 : after (.toc1 (.write16 0x0100)) { demo with acc := #v[0x464, 0, 0, 0] } (·.acc) =
    some #v[-0x3FB9C, 0, 0, 0] := by decide
/-- V-T10: gap exactly `WRAP`, one wrap added. -/
theorem test_toc1_adds : after (.toc1 (.write16 0x0119)) { demo with acc := #v[-0x3FB9C, 0, 0, 0] } (·.acc) =
    some #v[0x464, 0, 0, 0] := by decide
theorem test_toc2 : after (.toc2 (.write16 0x0100)) { demo with acc := #v[0x464, 0x464, 0, 0] } (·.acc) =
    some #v[0x464, -0x3FB9C, 0, 0] := by decide
theorem test_toc3 : after (.toc3 (.write16 0x0010)) { demo with acc := #v[0, 0, 0x50000, 0] } (·.acc) =
    some #v[0, 0, -0x30000, 0] := by decide
theorem test_toc4 : after (.toc4 .read16) demo (·.result) = some (.half 0xFFFF) := by decide
theorem test_tmsk : after (.tmsk (.write16 0x0800)) (demo.setReg16 .timer 0x22 0x0800) (fun t => (t.mask 0, t.mask 1, t.out)) =
    some (true, false, []) := by decide
/-- V-T12: every channel. -/
theorem test_tflg : after (.tflg (.write16 0)) ({ demo with acc := #v[0x50000, 0x50000, 0x50000, 0x50000] }.setReg16 .timer 0x18 0x10)
    (·.acc) = some #v[0x10000, 0x10000, -0x30000, 0x10000] := by decide
/-- V-C1. -/
theorem test_syncr : after (.syncr (.write16 0xFF00)) demo (·.sysclk) = some 8192000000 := by decide
theorem test_syncr_low_byte_restarts : after (.syncr (.write8 true 0xAA))
    { (demo.setReg16 .sys 0x22 0x0640).setReg16 .sys 0x24 2 with pitLoad := 32, pitCur := 10 }
    (fun t => (t.sysclk, t.pitLoad, t.pitCur)) = some (16000000, 32, 32) := by decide
/-- V-P4. -/
theorem test_porte0 : after (.porte0 (.write8 false 0xAB)) { demo with portE := ⟨0xFF, 0xF0, 0, 0⟩ } (fun t => (t.portE, t.storS)) =
    some (⟨0xFF, 0xF0, 0xA0, 1⟩, [(0x11, 0xAB)]) := by decide
theorem test_porte1 : after (.porte1 (.write8 false 0x5F)) { demo with portE := ⟨0xFF, 0xF0, 0xA0, 1⟩ }
    (fun t => (t.portE, t.storS)) = some (⟨0xFF, 0xF0, 0x50, 2⟩, [(0x13, 0x5F)]) := by decide
theorem test_ddre : after (.ddre (.read8 false)) { demo with storS := [(0x15, 0xF0)] } (·.result) = some (.byte 0xF0) := by decide
theorem test_pepar : after (.pepar (.write8 false 0x0F)) demo (fun t => (t.portE.enabledPins, t.storS)) =
    some (0xF0, [(0x17, 0x0F)]) := by decide
theorem test_portf0 : after (.portf0 (.read8 false)) { demo with portF := ⟨0, 0xFF, 0x3C, 0⟩, storS := [(0x19, 0x99)] }
    (·.result) = some (.byte 0x3C) := by decide
theorem test_portf1 : after (.portf1 (.write8 false 0xFF)) { demo with portF := ⟨0x01, 0xFF, 0, 0⟩ } (fun t => (t.portF.data, t.out)) =
    some (0x01, [.txWrite .f 0x01]) := by decide
theorem test_ddrf : after (.ddrf (.write8 false 0x18)) demo (fun t => (t.portF.direction, t.out)) =
    some (0x18, [.dirChange .f 0x18]) := by decide
theorem test_pfpar : after (.pfpar (.write8 false 0x80)) demo (·.portF.enabledPins) = some 0x7F := by decide
/-- V-C2. -/
theorem test_picr : after (.picr (.write16 0x0640)) (demo.setReg16 .sys 0x24 0x0102) (fun t => (t.pitLoad, t.pitCur)) =
    some (16384, 16384) := by decide
/-- V-C7: the largest load value. -/
theorem test_pitr : after (.pitr (.write16 0x01FF)) { (demo.setReg16 .sys 0x22 0x0700) with sysclk := 8192000000 } (·.pitLoad) =
    some 1069547520 := by decide

/-! ### The step -/

theorem test_step_runs_the_word : step (demo.withFetchWord 72 0x600000000300000040) =
    exec (.inject 0x40 3) { demo with engine := [⟨[], 0⟩] } := by rfl
theorem test_step_refuses_illegal_word : step (demo.withFetchWord 72 0) = .refused .illegalOperation := by rfl
theorem test_step_refuses_bad_configuration : step { demo with cfg := { demoCfg with extClockHz := 0 } } = .refused .badConfig := by
  rfl
theorem test_step_idles : step demo = .next demo := by rfl

/-! ### Listeners -/

/-- R235: the listener acts between the direction and the data: with the new direction `0xF0` the pins 3 to 0 are inputs
and take `0x0A` before the data write masks `0xFF` to `0xF0`. -/
theorem test_reaction_between : after (.write16 0xFF906 0xF0FF) { demo with reactions := [[.writeRx .gp 0x0A]] }
    (·.portGp) = some ⟨0xF0, 0xFF, 0xFA, 1⟩ := by decide
theorem test_reaction_nested_step : exec (.inject 0x40 3) { demo with reactions := [[.step]] } = .refused .nestedStep := by rfl

/-! ### Witnesses: for each statement with hypotheses, a state and operands that meet them together, for each clause -/

/-- A state in mid-run: `TOC1 = 0x0100` one cycle before its match with its mask bit set, `PICR = 0x0640` and `PITR = 2`
counting, and a vector pending at level 4. -/
def busy : State :=
  { (((demo.setReg16 .timer 0x14 0x0100).setReg16 .timer 0x20 0x0800).setReg16 .sys 0x22 0x0640).setReg16 .sys 0x24 2 with
    acc := #v[0x3FF, 0x464, 0, 0], cycles := 0x3FFFF, pitLoad := 32, pitCur := 2,
    queue := #v[[], [], [], [], [0x45], [], [], []], irq := 4 }

/-- The same with listeners that will react to the next two events. -/
def listening : State := { busy with reactions := [[.writeRx .gp 0x0A, .inject 0x41 2], [.replaceHook .e (.custom 1)]] }

/-- The same in the legacy variant, the counter having wrapped. -/
def legacyState : State := { busy with cfg := { demoCfg with variant := .legacy }, cycles := 0x40000, prevTcnt := 0xFFFF }

/-- A configuration whose load values can leave `i32`: a modulus field of 16 bits. -/
def wideCfg : Cfg := { demoCfg with pitrModWidth := 16 }

theorem wellFormed_demoCfg : demoCfg.WF := by decide

/-- The invariant from its parts, each decided. -/
theorem inv_of_check {s : State} (config : s.cfg.WF := by decide)
    (timer : Memory.wf (imageByte s.cfg .timer) 64 s.storT := by decide)
    (sys : Memory.wf (imageByte s.cfg .sys) 128 s.storS := by decide)
    (serial : Memory.wf (imageByte s.cfg .serial) 512 s.storQ := by decide)
    (request : s.irq = highest s.queue := by decide)
    (accumulators : ∀ k : Channel, i32Min ≤ s.acc[k] ∧ s.acc[k] ≤ i32Max := by decide)
    (clock : s.sysclk = clockOf s.cfg (s.reg16 .sys s.cfg.sSyncr) := by decide)
    (load : s.pitLoad = pitLoadNow s := by decide) (range : s.pitLoad ≤ i32Max := by decide)
    (count : i32Min ≤ s.pitCur ∧ s.pitCur ≤ s.pitLoad := by decide) : s.Inv where
  config := config
  storage := by intro r; cases r; exacts [timer, sys, serial]
  request := request
  accumulators := accumulators
  clock := clock
  load := load
  loadRange := range
  count := count

/-- What the invariant does not look at. -/
theorem inv_congr {b s : State} (hb : b.Inv) (h1 : s.storT = b.storT) (h2 : s.storS = b.storS) (h3 : s.storQ = b.storQ)
    (h4 : s.acc = b.acc) (h5 : s.sysclk = b.sysclk) (h6 : s.pitLoad = b.pitLoad) (h7 : s.pitCur = b.pitCur)
    (h8 : s.queue = b.queue) (h9 : s.irq = b.irq) (h10 : s.cfg = b.cfg) : s.Inv := by
  cases s; cases b
  subst h1 h2 h3 h4 h5 h6 h7 h8 h9 h10
  exact ⟨hb.config, hb.storage, hb.request, hb.accumulators, hb.clock, hb.load, hb.loadRange, hb.count⟩

theorem inv_demo : demo.Inv := inv_of_check
theorem inv_busy : busy.Inv := inv_of_check
theorem inv_listening : listening.Inv := inv_congr inv_busy rfl rfl rfl rfl rfl rfl rfl rfl rfl rfl
theorem inv_legacy : legacyState.Inv := inv_of_check

theorem quiet_demo : demo.quiet := rfl
theorem quiet_busy : busy.quiet := rfl
theorem quiet_legacy : legacyState.quiet := rfl
theorem orderly_busy : busy.orderly := by unfold State.orderly; decide
theorem orderly_listening : listening.orderly := by unfold State.orderly; decide

theorem loadsFit_demoCfg : LoadsFit demoCfg := by
  intro picr pitr syncr
  unfold pitLoadOf
  split
  · decide
  · have h1 : pitModulus demoCfg pitr ≤ 255 := Nat.le_of_lt_succ (Nat.mod_lt _ (by decide))
    have h2 : pitPrescale demoCfg pitr ≤ 512 := by unfold pitPrescale; split <;> decide
    have h3 : fieldOf syncr demoCfg.syncrYLo demoCfg.syncrYWidth ≤ 63 := Nat.le_of_lt_succ (Nat.mod_lt _ (by decide))
    have h4 : ∀ w x : Bool, 2 ^ (2 * w.toNat + x.toNat) ≤ 8 := by decide
    have h5 : clockRatio demoCfg syncr ≤ 2048 := by
      unfold clockRatio
      calc _ ≤ 4 * (63 + 1) * 8 := Nat.mul_le_mul (by omega) (h4 _ _)
        _ = 2048 := rfl
    have h6 : clockOf demoCfg syncr / demoCfg.extClockHz = clockRatio demoCfg syncr :=
      Nat.mul_div_cancel_left _ (by decide)
    rw [h6]
    have h7 := Nat.mul_le_mul (Nat.mul_le_mul (Nat.mul_le_mul h1 h2) (Nat.le_refl 4)) h5
    unfold i32Max
    omega

theorem witness_DecodeInvertsEncode :
    (Instr.write32 0xFFFFFFFF 0xFFFFFFFF).wf = true ∧ (Instr.ack 7).wf = true ∧ (Instr.pitr (.write8 true 0xFF)).wf = true ∧
    (Instr.pfpar (.write8 false 0xFF)).wf = true := by decide

theorem witness_TransactionWordIsTheOnlyOne : decode (.tw 0x620000000700000000) = .ok (.ack 7) := rfl

theorem witness_UnlistedSelectorsAreIllegal :
    (0xFF#8).toNat ∉ ([0x01, 0x02, 0x04, 0x11, 0x12, 0x14, 0x22, 0x24, 0x28, 0x29, 0x2A, 0x30, 0x31, 0x32, 0x34, 0x35, 0x36,
      0x38, 0x39, 0x3A, 0x3C, 0x3D, 0x3E, 0x50, 0x51, 0x52, 0x53, 0x54, 0x60, 0x61, 0x62, 0x70, 0x71, 0x72, 0x73, 0x74,
      0x75, 0x76, 0x78, 0x79, 0x7A] : List Nat) ∧
    demo.cfg.WF ∧ { demo with requests := [.word (.tw (0xFF#8 ++ 0#32 ++ 0#32))] }.requests =
      .word (.tw (0xFF#8 ++ 0#32 ++ 0#32)) :: [] := ⟨by decide, by decide, rfl⟩

theorem witness_RegisterWordsSelectTheirRegister :
    ((RegName.toc4.instr (.read8 true)).wf = true ∧ (0xFFFFF91B#32).toNat % 2 ^ 20 = registerAddress .toc4 + true.toNat) ∧
    ((RegName.pitr.instr .read16).wf = true ∧ (0x000FFA24#32).toNat % 2 ^ 20 = registerAddress .pitr + false.toNat) := by
  decide

theorem witness_RegisterWords_noRegister : ∀ (n : RegName) (lo : Bool), (n.instr (.read8 lo)).wf = true →
    (0x000FFA26#32).toNat % 2 ^ 20 ≠ registerAddress n + lo.toNat := by
  intro n lo; cases n <;> cases lo <;> decide

theorem witness_OffsetsSelectTheirRegister :
    demoCfg.WF ∧ (∀ k : Channel, 0x1C ≠ demoCfg.tToc[k] ∧ 0x1C ≠ demoCfg.tToc[k] + 1) ∧
    (0x1C ≠ demoCfg.tTmsk ∧ 0x1C ≠ demoCfg.tTflg ∧ 0x1C ≠ demoCfg.tDdrgp ∧ 0x1C ≠ demoCfg.tPortgp ∧
      0x1C ≠ demoCfg.tTcnt ∧ 0x1C ≠ demoCfg.tTcnt + 1) ∧
    (0x26 ≠ demoCfg.sPitr ∧ 0x26 ≠ demoCfg.sPitr + 1 ∧ 0x26 ∉ demoCfg.sPorteData ∧ 0x26 ∉ demoCfg.sPortfData) :=
  ⟨wellFormed_demoCfg, by decide, by decide, by decide⟩

theorem witness_StepRunsTheDecodedInstruction :
    { busy with requests := [.word (.tw 0x620000000400000000)] }.cfg.WF ∧
    { busy with requests := [.word (.tw 0x620000000400000000)] }.requests = .word (.tw 0x620000000400000000) :: [] ∧
    decode (.tw 0x620000000400000000) = .ok (.ack 4) := ⟨wellFormed_demoCfg, rfl, rfl⟩

/-- One state for each clause; the first has no request at all. -/
theorem witness_StepWithoutAnOperation :
    (busy.cfg.WF ∧ busy.requests = []) ∧
    { busy with requests := [.replaceHook .f (.custom 3)] }.requests = .replaceHook .f (.custom 3) :: [] ∧
    { busy with requests := [.setProgramCounter 0x400] }.requests = .setProgramCounter 0x400 :: [] ∧
    { busy with requests := [.pulseReset] }.requests = .pulseReset :: [] ∧
    ({ busy with requests := [.word (.reg 0)] }.requests = .word (.reg 0) :: [] ∧
      decode (.reg 0) = .error .noRegister) ∧
    ¬ { busy with cfg := { demoCfg with extClockHz := 0 } }.cfg.WF :=
  ⟨⟨wellFormed_demoCfg, rfl⟩, rfl, rfl, rfl, ⟨rfl, rfl⟩, by decide⟩

theorem witness_StepKeepsInv : listening.Inv ∧
    ∃ t, step (listening.withFetchWord 72 0x780000000000000001) = .next t := ⟨inv_listening, _, rfl⟩

theorem witness_StepKeepsInv_inv : (listening.withFetchWord 72 0x780000000000000001).Inv := inv_congr inv_busy rfl rfl rfl rfl rfl rfl rfl rfl rfl rfl

theorem witness_ResetStateIsGood : wideCfg.WF := by decide

theorem witness_RequestLevelIsTheHighestPending :
    ((∀ l : Level, busy.irq < l → busy.queue[l] = []) ∧ (busy.irq ≠ 0 → busy.queue[busy.irq] ≠ [])) ∧
    ∃ t, exec (.inject 0x77 7) busy = .next t := ⟨by decide, _, rfl⟩

theorem witness_NoOperationChangesTheConfiguration : ∃ t, exec .sysReset listening = .next t := ⟨_, rfl⟩

theorem witness_PendingVectorsLeaveOnlyByAcknowledge :
    (∃ t, exec (.tExec 1) listening = .next t) ∧
    ((∃ t, exec .sysStep { listening with engine := [⟨[.write16 0xFF922 0, .illegal 0x4AFC], 1⟩] } = .next t) ∧
      ∀ op ∈ (engineAnswer { listening with engine := [⟨[.write16 0xFF922 0, .illegal 0x4AFC], 1⟩] }).ops,
        ∀ lvl : Level, op ≠ .ack lvl) ∧
    (∃ t, exec (.ack 4) listening = .next t) ∧ (∃ t, exec (.ack 7) listening = .next t) ∧
    ∃ t, exec .sysReset listening = .next t := ⟨⟨_, rfl⟩, ⟨⟨_, rfl⟩, by decide⟩, ⟨_, rfl⟩, ⟨_, rfl⟩, _, rfl⟩

/-- The first and the last byte of a window, and the last word. -/
theorem witness_RegionRangeTestAndReads :
    ((0xFF93F#32).toNat % 2 = 1 ∧ Claims busy.cfg .timer (0xFF93F#32).toNat) ∧
    (¬ Claims busy.cfg .timer (0xFF940#32).toNat ∧ (0xFF940#32).toNat % 2 = 0) ∧
    Claims busy.cfg .timer (0xFF900#32).toNat ∧ Claims busy.cfg .serial (0xFFDFF#32).toNat ∧
    (Claims busy.cfg .sys (0xFFA7E#32).toNat ∧ Claims busy.cfg .sys ((0xFFA7E#32).toNat + 1) ∧ (0xFFA7E#32).toNat % 2 = 0) := by
  unfold Claims; decide

theorem witness_LaneReadByRegister : busy.cfg.WF := wellFormed_demoCfg

theorem witness_LaneReadByRegister_offsets : 0x13 ∈ busy.cfg.sPorteData ∧ 0x19 ∈ busy.cfg.sPortfData ∧
    (0x0C ≠ busy.cfg.tTcnt ∧ 0x0C ≠ busy.cfg.tTcnt + 1 ∧ 0x0C ≠ busy.cfg.tPortgp) ∧
    (0x12 ∉ busy.cfg.sPorteData ∧ 0x12 ∉ busy.cfg.sPortfData) := by decide

/-- A plain byte and the last plain word of a window; a byte and the word of the mask register. -/
theorem witness_RegionWritesStorePlainBytes :
    busy.Inv ∧
    (0x3F = (0xFF93F#32).toNat - regionBase busy.cfg .timer ∧ Claims busy.cfg .timer (0xFF93F#32).toNat ∧
      regAt busy.cfg .timer 0x3F = none) ∧
    (0x1FE = (0xFFDFE#32).toNat - regionBase busy.cfg .serial ∧ Claims busy.cfg .serial (0xFFDFE#32).toNat ∧
      regAt busy.cfg .serial 0x1FE = none ∧ Claims busy.cfg .serial ((0xFFDFE#32).toNat + 1) ∧
      (0xFFDFE#32).toNat % 2 = 0 ∧ regAt busy.cfg .serial (0x1FE + 1) = none) ∧
    (0x20 = (0xFF920#32).toNat - regionBase busy.cfg .timer ∧ Claims busy.cfg .timer (0xFF920#32).toNat ∧
      regAt busy.cfg .timer 0x20 = some .tmsk ∧ Claims busy.cfg .timer ((0xFF920#32).toNat + 1) ∧
      regAt busy.cfg .timer (0x20 + 1) = some .tmsk) := ⟨inv_busy, by unfold Claims; decide⟩

theorem witness_WordWriteRunsBothPortRegisters :
    listening.Inv ∧ 0x06 = (0xFF906#32).toNat - regionBase listening.cfg .timer ∧
    Claims listening.cfg .timer (0xFF906#32).toNat ∧ portOperation (regAt listening.cfg .timer 0x06) 0xF0 ≠ [] ∧
    (0xFF906#32).toNat % 2 = 0 ∧ Claims listening.cfg .timer ((0xFF906#32).toNat + 1) ∧
    regAt listening.cfg .timer 0x06 ≠ regAt listening.cfg .timer (0x06 + 1) :=
  ⟨inv_listening, by unfold Claims; decide⟩

theorem witness_WordsAreReadBack :
    busy.Inv ∧ 0x14 = (0xFF914#32).toNat - regionBase busy.cfg .timer ∧
    (∀ p : Port, regAt busy.cfg .timer 0x14 ≠ some (.data p) ∧ regAt busy.cfg .timer (0x14 + 1) ≠ some (.data p)) ∧
    regAt busy.cfg .timer 0x14 ≠ some .tcnt ∧ ∃ t, exec (w16Of .timer 0xFF914 0x0123) busy = .next t :=
  ⟨inv_busy, by decide, by intro p; cases p <;> decide, by decide, _, rfl⟩

theorem witness_RegionAccessOutsideIsRefused :
    ¬ Claims busy.cfg .timer (0xFF940#32).toNat ∧
    ((0xFF8FE#32).toNat % 2 = 0 ∧
      ¬ (Claims busy.cfg .timer (0xFF8FE#32).toNat ∧ Claims busy.cfg .timer ((0xFF8FE#32).toNat + 1))) ∧
    ((0xFF93D#32).toNat % 2 = 1 ∧ Claims busy.cfg .timer (0xFF93D#32).toNat ∧
      Claims busy.cfg .timer ((0xFF93D#32).toNat + 1)) ∧
    ((0xFF93F#32).toNat % 2 = 1 ∧
      ¬ (Claims busy.cfg .timer (0xFF93F#32).toNat ∧ Claims busy.cfg .timer ((0xFF93F#32).toNat + 1))) := by
  unfold Claims; decide

theorem witness_SetDirection : listening.orderly ∧ (busy.orderly ∧ busy.quiet) :=
  ⟨orderly_listening, orderly_busy, quiet_busy⟩

theorem witness_WriteTx :
    { busy with portE := ⟨0xF0, 0x3C, 0x05, 0xFFFFFFFFFFFFFFFE⟩ }.orderly ∧
    ({ busy with portE := ⟨0xF0, 0x3C, 0x05, 0xFFFFFFFFFFFFFFFE⟩ }.port .e).writeCounter.toNat < 2 ^ 64 - 1 ∧
    { busy with portE := ⟨0xF0, 0x3C, 0x05, 0xFFFFFFFFFFFFFFFE⟩ }.quiet := ⟨orderly_busy, by decide, rfl⟩

theorem witness_PortReadAndEnable : busy.hook .qs = .identity := rfl

theorem witness_PortMaskLaws :
    { busy with portE := ⟨0xF0, 0x3C, 0x05, 0xFFFFFFFFFFFFFFFD⟩ }.quiet ∧
    ({ busy with portE := ⟨0xF0, 0x3C, 0x05, 0xFFFFFFFFFFFFFFFD⟩ }.port .e).writeCounter.toNat + 2 < 2 ^ 64 ∧
    ({ busy with portE := ⟨0xF0, 0x3C, 0x05, 0xFFFFFFFFFFFFFFFD⟩ }.port .e).enabledPins.getLsbD 7 = false :=
  ⟨rfl, by decide, by decide⟩

theorem witness_InjectAppendsAndRescans : listening.orderly ∧ (busy.quiet ∧ busy.irq = highest busy.queue) :=
  ⟨orderly_listening, quiet_busy, by decide⟩

theorem witness_PendingTestAndAcknowledge :
    listening.queue[(7 : Level)] = [] ∧ (listening.queue[(4 : Level)] = 0x45 :: [] ∧ listening.orderly) ∧
    (busy.queue[(4 : Level)] = 0x45 :: [] ∧ busy.quiet) := ⟨by decide, ⟨by decide, orderly_listening⟩, by decide, quiet_busy⟩

theorem witness_LevelsAreFirstInFirstOut :
    busy.quiet ∧ busy.queue[(3 : Level)] = [] ∧ ([0x41, 0x42, 0x41] : List Byte) = [0x41, 0x42] ++ 0x41 :: [] :=
  ⟨quiet_busy, by decide, rfl⟩

theorem witness_BusReadsReachTheLanes :
    busy.cfg.WF ∧ (0xFF93E = (0xABCFF93E#32).toNat % 2 ^ 20 ∧ Claims busy.cfg .timer 0xFF93E ∧ 0xFF93E % 2 = 0) ∧
    (0xFF93F = (0xFF93F#32).toNat % 2 ^ 20 ∧ Claims busy.cfg .timer 0xFF93F) ∧
    (0xFF940 = (0xFF940#32).toNat % 2 ^ 20 ∧ ∀ r : Region, ¬ Claims busy.cfg r 0xFF940) :=
  ⟨wellFormed_demoCfg, by unfold Claims; decide, by unfold Claims; decide, by decide,
    by intro r; cases r <;> (unfold Claims; decide)⟩

theorem witness_LongAccessIsTwoWordAccesses :
    (exec (.read16 0xFF93E) busy = .next (busy.setResult (.half 0)) ∧
      exec (.read16 (0xFF93E + 2)) busy = .next (busy.setResult (.half 0))) ∧
    exec (.read16 0xFF913) busy = .refused .misaligned ∧
    (exec (.read16 0xFF8FF) busy = .next (busy.setResult (.half 0)) ∧
      exec (.read16 (0xFF8FF + 2)) busy = .refused .misaligned) ∧
    (0xFFFFFFFE#32).toNat % 2 = 0 := ⟨⟨rfl, rfl⟩, rfl, ⟨rfl, rfl⟩, by decide⟩

theorem witness_FetchIsRead : (0xFFFFFFFE#32).toNat % 2 = 0 := by decide

theorem witness_UnclaimedReadsZeroDropsWrites :
    (∀ r : Region, ¬ Claims busy.cfg r ((0xFF941#32).toNat % 2 ^ 20)) ∧
    (∀ r : Region, ¬ Claims busy.cfg r (((0xFF941#32).toNat + 2) % 2 ^ 20)) := by
  constructor <;> (intro r; cases r <;> (unfold Claims; decide))

/-- An odd claimed address; one whose second half only is claimed. -/
theorem witness_OddClaimedWordsAreRefused :
    busy.cfg.WF ∧ (Claims busy.cfg .timer ((0xFF93F#32).toNat % 2 ^ 20) ∧ (0xFF93F#32).toNat % 2 = 1) ∧
    (Claims busy.cfg .timer (((0xFF8FF#32).toNat + 2) % 2 ^ 20) ∧ (0xFF8FF#32).toNat % 2 = 1) := ⟨wellFormed_demoCfg, by unfold Claims; decide⟩

theorem witness_AddressesAliasModuloTheWindow : (0x123FF914#32).toNat % 2 ^ 20 = (0xFF914#32).toNat % 2 ^ 20 := by decide

theorem witness_BusAccessIsRegionAccess :
    busy.cfg.WF ∧ (0xFFDFF#32) = BitVec.ofNat 32 ((0xFFFFFDFF#32).toNat % 2 ^ 20) ∧ Claims busy.cfg .serial (0xFFDFF#32).toNat :=
  ⟨wellFormed_demoCfg, by decide, by unfold Claims; decide⟩

theorem witness_BusWritesComplete :
    listening.Inv ∧ listening.orderly ∧ LoadsFit listening.cfg ∧ 0xFF93E = (0x7FFFF93E#32).toNat % 2 ^ 20 ∧
    0xFF940 = ((0x7FFFF93E#32).toNat + 2) % 2 ^ 20 ∧ (0x7FFFF93E#32).toNat % 2 = 0 ∧
    Claims listening.cfg .timer 0xFF93E ∧
    regAt listening.cfg .timer (0xFF93E - regionBase listening.cfg .timer) ≠ some .tcnt ∧
    (0xFFC00 = ((0x000FFBFE#32).toNat + 2) % 2 ^ 20 ∧ Claims listening.cfg .serial 0xFFC00 ∧
      regAt listening.cfg .serial (0xFFC00 - regionBase listening.cfg .serial) ≠ some .tcnt) :=
  ⟨inv_listening, orderly_listening, loadsFit_demoCfg, by decide, by decide, by decide, by unfold Claims; decide, by decide,
    by unfold Claims; decide⟩

theorem witness_NamedAccessIsBusAccess :
    (busy.cfg.WF ∧ namedAt busy.cfg .porte1 = (.sys, 0x13) ∧
      (0xFFA13#32) = BitVec.ofNat 32 (regionBase busy.cfg .sys + 0x13 + false.toNat) ∧
      (RegName.porte1.instr (.read8 false)).wf = true) ∧
    (namedAt busy.cfg .pitr = (.sys, 0x24) ∧
      (0xFFA25#32) = BitVec.ofNat 32 (regionBase busy.cfg .sys + 0x24 + true.toNat) ∧
      (RegName.pitr.instr (.read8 true)).wf = true ∧ (0xFFA24#32) = BitVec.ofNat 32 (regionBase busy.cfg .sys + 0x24) ∧
      (RegName.pitr.instr .read16).wf = true) := ⟨⟨wellFormed_demoCfg, by decide⟩, by decide⟩

theorem witness_DirectionAndAssignmentRegisters :
    (directionPort .ddrf = some .f ∧ listening.Inv ∧ namedAt listening.cfg .ddrf = (.sys, 0x1D) ∧ listening.orderly) ∧
    (directionPort .ddrgp = some .gp ∧ busy.Inv ∧ namedAt busy.cfg .ddrgp = (.timer, 0x06) ∧ busy.orderly ∧ busy.quiet) ∧
    (assignPort .pfpar = some .f ∧ busy.Inv ∧ namedAt busy.cfg .pfpar = (.sys, 0x1F)) :=
  ⟨⟨rfl, inv_listening, rfl, orderly_listening⟩, ⟨rfl, inv_busy, rfl, orderly_busy, quiet_busy⟩, rfl, inv_busy, rfl⟩

theorem witness_DataRegisters :
    (dataPort .portf1 = some .f ∧ listening.Inv ∧ namedAt listening.cfg .portf1 = (.sys, 0x1B) ∧ listening.orderly) ∧
    (dataPort .portgp = some .gp ∧ busy.Inv ∧ namedAt busy.cfg .portgp = (.timer, 0x07) ∧ busy.orderly ∧ busy.quiet) :=
  ⟨⟨rfl, inv_listening, rfl, orderly_listening⟩, rfl, inv_busy, rfl, orderly_busy, quiet_busy⟩

theorem witness_CounterRegister : busy.cfg.WF := wellFormed_demoCfg

/-- The whole register at the highest target, and its low byte alone. -/
theorem witness_TargetRegisters :
    targetChannel .toc4 = some 3 ∧ busy.Inv ∧ 0x1A = busy.cfg.tToc[(3 : Channel)] ∧ busy.cfg.variant = .multichannel ∧
    (∃ v, RegAccess.write16 0xFFFF = .write16 v ∧ busy.setReg16 .timer 0x1A 0xFFFF = busy.setReg16 .timer 0x1A v) ∧
    ∃ lo v, RegAccess.write8 true 0x00 = .write8 lo v ∧ busy.setByte .timer 0x1B 0x00 = busy.setByte .timer (0x1A + lo.toNat) v :=
  ⟨rfl, inv_busy, rfl, rfl, ⟨_, rfl, rfl⟩, true, 0x00, rfl, rfl⟩

theorem witness_MaskRegister : busy.Inv ∧ 0x20 = busy.cfg.tTmsk := ⟨inv_busy, rfl⟩

theorem witness_FlagRegister :
    busy.Inv ∧ 0x22 = busy.cfg.tTflg ∧ busy.cfg.variant = .multichannel ∧
    (∃ v, RegAccess.write16 0x0000 = .write16 v ∧ busy.setReg16 .timer 0x22 0x0000 = busy.setReg16 .timer 0x22 v) ∧
    ∃ lo v, RegAccess.write8 true 0x00 = .write8 lo v ∧ busy.setByte .timer 0x23 0x00 = busy.setByte .timer (0x22 + lo.toNat) v :=
  ⟨inv_busy, rfl, rfl, ⟨_, rfl, rfl⟩, true, 0x00, rfl, rfl⟩

/-- A wide modulus, enabled: load value `0xFFFF * 512 * 4 * 4` in `i32`; its clock will be raised past `i32`. -/
def wide : State :=
  { (({ demo with cfg := wideCfg }.setReg16 .sys 0x22 0x0100).setReg16 .sys 0x24 0xFFFF) with
    pitLoad := 536862720, pitCur := 536862720 }

theorem inv_wide : wide.Inv := inv_of_check

/-- The same configuration at the highest clock ratio, the periodic timer enabled with modulus 0. -/
def fast : State :=
  { (({ demo with cfg := wideCfg }.setReg16 .sys 0x04 0xFF00).setReg16 .sys 0x22 0x0100) with sysclk := 8192000000 }

theorem inv_fast : fast.Inv := inv_of_check

theorem witness_ClockControlRegister :
    busy.Inv ∧ 0x04 = busy.cfg.sSyncr ∧ pitLoadOf busy.cfg (busy.reg16 .sys busy.cfg.sPicr) (busy.reg16 .sys busy.cfg.sPitr)
      (clockOf busy.cfg ((busy.setReg16 .sys 0x04 0xFF00).reg16 .sys 0x04)) ≤ 0x7FFFFFFF :=
  ⟨inv_busy, by decide⟩

theorem witness_PeriodicTimerRegisters :
    (RegName.picr = .picr ∧ 0x22 = busy.cfg.sPicr ∨ RegName.picr = .pitr ∧ 0x22 = busy.cfg.sPitr) ∧ busy.Inv ∧
      pitLoadOf busy.cfg ((busy.setReg16 .sys 0x22 0x0700).reg16 .sys busy.cfg.sPicr)
        ((busy.setReg16 .sys 0x22 0x0700).reg16 .sys busy.cfg.sPitr) (clockOf busy.cfg (busy.reg16 .sys busy.cfg.sSyncr)) ≤
        0x7FFFFFFF := ⟨.inl ⟨rfl, rfl⟩, inv_busy, by decide⟩

theorem witness_TwoByteWritesEndAsOneWord :
    (targetChannel .toc1 ≠ none ∨ RegName.toc1 = .picr) ∧ (targetChannel .picr ≠ none ∨ RegName.picr = .picr) ∧ busy.Inv ∧
    LoadsFit busy.cfg := ⟨by decide, by decide, inv_busy, loadsFit_demoCfg⟩

theorem witness_TimerExecStep :
    busy.Inv ∧ busy.quiet ∧ busy.cfg.variant = .multichannel ∧ (0x7FFFFB9B#32).toNat < 2 ^ 31 ∧
    ∀ k ∈ activeChannels busy.cfg.activeOc, busy.acc[k] + (0x7FFFFB9B#32).toNat ≤ 0x7FFFFFFF :=
  ⟨inv_busy, quiet_busy, rfl, by decide⟩

theorem witness_TimerExecStep_refused :
    busy.quiet ∧ busy.cfg.variant = .multichannel ∧ (0x7FFFFB9C#32).toNat < 2 ^ 31 ∧
    ∃ k ∈ activeChannels busy.cfg.activeOc, busy.acc[k] + (0x7FFFFB9C#32).toNat > 0x7FFFFFFF :=
  ⟨quiet_busy, rfl, by decide, 1, by decide, by decide⟩

/-- The counter just wrapped, and the counter just before. -/
theorem witness_LegacyVariant :
    ((targetChannel .toc1 ≠ none ∨ RegName.toc1 = .tflg) ∧ (targetChannel .tflg ≠ none ∨ RegName.tflg = .tflg)) ∧
    (legacyState.Inv ∧ legacyState.cfg.variant = .legacy ∧ namedAt legacyState.cfg .toc1 = (.timer, 0x14) ∧
      namedAt legacyState.cfg .tflg = (.timer, 0x22)) ∧
    (legacyState.quiet ∧ (0x7FFFFFFF#32).toNat < 2 ^ 31 ∧
      legacyState.cycles.toNat / 4 % 65536 < legacyState.prevTcnt.toNat) ∧
    { legacyState with cycles := 0x3FFFF }.cycles.toNat / 4 % 65536 ≥ legacyState.prevTcnt.toNat :=
  ⟨by decide, ⟨inv_legacy, rfl, rfl, rfl⟩, ⟨quiet_legacy, by decide, by decide⟩, by decide⟩

/-- Channel 0 one cycle past its target. -/
def overshoot : State := { busy with acc := #v[0x401, 0, 0, 0] }

/-- The periodic timer near the least `i32`; and just restarted. -/
def lateCount : State := { busy with pitCur := -0x7FFFFFFF }
def fullCount : State := { busy with pitCur := 32 }

theorem inv_overshoot : overshoot.Inv := inv_of_check
theorem inv_lateCount : lateCount.Inv := inv_of_check
theorem inv_fullCount : fullCount.Inv := inv_of_check

theorem witness_FlagSetsAtTheCrossing :
    busy.Inv ∧ busy.quiet ∧ busy.cfg.variant = .multichannel ∧ (0 : Channel) ∈ activeChannels busy.cfg.activeOc ∧
    (∀ j ∈ activeChannels busy.cfg.activeOc, busy.acc[j] + totalCycles [0, 1, 0x100] ≤ 0x7FFFFFFF) ∧
    (∀ d ∈ ([0, 1, 0x100] : List Word), d.toNat < 2 ^ 31) ∧
    (overshoot.Inv ∧ (0xF7FF#16).getLsbD overshoot.cfg.ocBit[(0 : Channel)] = false ∧
      overshoot.target 0 < overshoot.acc[(0 : Channel)] ∧ overshoot.acc[(0 : Channel)] < overshoot.target 0 + 0x40000) :=
  ⟨inv_busy, quiet_busy, rfl, by decide, by decide,
    by intro d hd; simp only [List.mem_cons, List.not_mem_nil, or_false] at hd; rcases hd with rfl | rfl | rfl <;> decide,
    inv_overshoot, by decide⟩

/-- A disabled timer; a count that would leave `i32`; a count that ends exactly at zero, and one
that ends at one. -/
theorem witness_ClockExecStep :
    busy.Inv ∧ busy.quiet ∧ (demo.Inv ∧ demo.pitLoad = 0) ∧
    (lateCount.Inv ∧ busy.pitLoad ≠ 0 ∧
      lateCount.pitCur - (2#32).toNat < -0x80000000) ∧
    ((2#32).toNat < 2 ^ 31 ∧ -0x80000000 ≤ busy.pitCur - (2#32).toNat ∧ decide (busy.pitCur - (2#32).toNat ≤ 0) = true) ∧
    decide (busy.pitCur - (1#32).toNat ≤ 0) = false :=
  ⟨inv_busy, quiet_busy, ⟨inv_demo, rfl⟩, ⟨inv_lateCount, by decide⟩, by decide, by decide⟩

/-- A step longer than the period among the first clause's; steps of exactly the period among the second's. -/
theorem witness_PeriodLaw :
    fullCount.Inv ∧ fullCount.quiet ∧ 0 < 32 ∧ fullCount.pitLoad = ((32 : Nat) : Int) ∧
    fullCount.pitCur = ((32 : Nat) : Int) ∧
    (∃ t, execList (([0x64, 0] : List Word).map Instr.sExec) fullCount = .next t) ∧
    ∀ d ∈ ([32, 31, 1, 0] : List Word), d.toNat ≤ 32 :=
  ⟨inv_fullCount, rfl, by decide, rfl, rfl, ⟨_, rfl⟩,
    by intro d hd; simp only [List.mem_cons, List.not_mem_nil, or_false] at hd; rcases hd with rfl | rfl | rfl | rfl <;> decide⟩

theorem witness_ExecVisitsPeripheralsInOrder :
    2 ^ 31 ≤ (0x80000000#32).toNat ∧ (0x7FFFFFFF#32).toNat < 2 ^ 31 ∧ listening.Inv ∧ listening.orderly ∧
    (∀ k ∈ activeChannels listening.cfg.activeOc, listening.acc[k] + (0x7FFFFB9B#32).toNat ≤ 0x7FFFFFFF) ∧
    -0x80000000 ≤ listening.pitCur - (0x7FFFFB9B#32).toNat :=
  ⟨by decide, by decide, inv_listening, orderly_listening, by decide, by decide⟩

theorem witness_StepRunsTheEngineThenThePeripherals :
    ({ busy with engine := [⟨[.ack 4], 0x7FFFFB9B⟩] }.engine = ⟨[.ack 4], 0x7FFFFB9B⟩ :: [] ∧
      busy.cycles.toNat + 0x7FFFFB9B < 2 ^ 64 ∧ 0x7FFFFB9B < 2 ^ 31 ∧
      ∃ t, exec .sysStep { busy with engine := [⟨[.ack 4], 0x7FFFFB9B⟩] } = .next t) ∧
    ({ busy with engine := [⟨[], 2 ^ 31⟩] }.engine = ⟨[], 2 ^ 31⟩ :: [] ∧ busy.cycles.toNat + 2 ^ 31 < 2 ^ 64 ∧ 2 ^ 31 ≤ 2 ^ 31) :=
  ⟨⟨rfl, by decide, by decide, _, rfl⟩, rfl, by decide, le_refl _⟩

theorem witness_StepCompletes :
    let ops : List EngineOp := [.write16 0xFF922 0, .read32 0xFFFFFFFE, .read8 0xFF915, .ack 4]
    listening.Inv ∧ listening.orderly ∧ LoadsFit listening.cfg ∧
    { listening with engine := [⟨ops, 0x7FFBFFFF⟩] }.engine = ⟨ops, 0x7FFBFFFF⟩ :: [] ∧ 0x7FFBFFFF < 2 ^ 31 ∧
    (ops ≠ [] → 0x7FFBFFFF < 2 ^ 31 - 0x40000) ∧
    listening.cycles.toNat + 0x7FFBFFFF < 2 ^ 64 ∧ (∀ op ∈ ops, EngineAligned op) ∧
    (∀ k : Channel, listening.acc[k] + (0x7FFBFFFF : Nat) ≤ 0x7FFFFFFF) ∧
    -0x80000000 ≤ listening.pitCur - (0x7FFBFFFF : Nat) :=
  ⟨inv_listening, orderly_listening, loadsFit_demoCfg, rfl, by decide, by decide, by decide,
    by intro op h; simp only [List.mem_cons, List.not_mem_nil, or_false] at h; rcases h with rfl | rfl | rfl | rfl <;> simp [EngineAligned],
    by decide, by decide⟩

/-- An idle engine that reports the most cycles the accumulators have room for. -/
theorem witness_StepCompletes_idle :
    { busy with engine := [⟨[], 0x7FFFFB9B⟩] }.engine = ⟨[], 0x7FFFFB9B⟩ :: [] ∧ 0x7FFFFB9B < 2 ^ 31 ∧
    busy.Inv ∧ busy.orderly ∧ LoadsFit busy.cfg ∧ busy.cycles.toNat + 0x7FFFFB9B < 2 ^ 64 ∧
    (∀ k : Channel, busy.acc[k] + (0x7FFFFB9B : Nat) ≤ 0x7FFFFFFF) ∧ -0x80000000 ≤ busy.pitCur - (0x7FFFFB9B : Nat) :=
  ⟨rfl, by decide, inv_busy, orderly_busy, loadsFit_demoCfg, by decide, by decide, by decide⟩

theorem witness_ResetRestoresEveryField :
    Instr.ack 4 ≠ .sysReset ∧ Instr.ack 4 ≠ .sysStep ∧ ∃ t, exec (.ack 4) busy = .next t := ⟨by decide, by decide, _, rfl⟩

theorem witness_SoftwareSeesTheResetValues :
    (RegName.toc1.instr .read16).wf = true ∧ (RegName.pepar.instr .read16).wf = false ∧
    ∃ t, exec .sysReset listening = .next t := ⟨rfl, rfl, _, rfl⟩

theorem witness_ReactionsActAtTheEvent :
    { busy with reactions := [[.writeRx .gp 0x0A], [.step]] }.reactions = [.writeRx .gp 0x0A] :: [[.step]] ∧
    { busy with reactions := [[.inject 0x41 2]] }.reactions = [.inject 0x41 2] :: [] ∧
    { busy with reactions := [[.replaceHook .qs (.custom 9)]] }.reactions = [.replaceHook .qs (.custom 9)] :: [] ∧
    ({ busy with reactions := [[.writeRx .gp 0x0A]] }.Inv ∧ 0x06 = (0xFF906#32).toNat - regionBase busy.cfg .timer ∧
      Claims busy.cfg .timer (0xFF906#32).toNat ∧ Claims busy.cfg .timer ((0xFF906#32).toNat + 1) ∧
      (0xFF906#32).toNat % 2 = 0 ∧ regAt busy.cfg .timer 0x06 = some (.dir .gp) ∧
      regAt busy.cfg .timer (0x06 + 1) = some (.data .gp)) ∧
    (Reaction.external (.exec 5) = false ∧
      { busy with reactions := [[.exec 5, .writeRx .gp 0]] }.reactions = (.exec 5 :: [.writeRx .gp 0]) :: [] ∧
      busy.queue[(4 : Level)] ≠ []) :=
  ⟨rfl, rfl, rfl, ⟨inv_congr inv_busy rfl rfl rfl rfl rfl rfl rfl rfl rfl rfl, by unfold Claims; decide⟩, rfl, rfl, by decide⟩

/-- The last even address of a window; the least operand too long; one write of each register that takes the load value out
of `i32`, whole or one byte; an odd address inside the region and one at its end. -/
theorem witness_EdgesOfTheDomain :
    Instr.fetch32 0xFF93F ∈ [Instr.read8 0xFF93F, .read16 0xFF93F, .read32 0xFF93F, .fetch16 0xFF93F, .fetch32 0xFF93F,
      .write8 0xFF93F 0, .write16 0xFF93F 0, .write32 0xFF93F 0] ∧
    (demoCfg.WF ∧ 0xFFDFE % 2 = 0 ∧ Claims demoCfg .serial 0xFFDFE) ∧ 2 ^ 31 ≤ (0x80000000#32).toNat ∧
    (wide.Inv ∧ namedAt wide.cfg .syncr = (.sys, 0x04) ∧
      pitLoadOf wide.cfg ((wide.setByte .sys 0x04 0xFF).reg16 .sys wide.cfg.sPicr)
        ((wide.setByte .sys 0x04 0xFF).reg16 .sys wide.cfg.sPitr)
        (clockOf wide.cfg ((wide.setByte .sys 0x04 0xFF).reg16 .sys wide.cfg.sSyncr)) > 0x7FFFFFFF) ∧
    (fast.Inv ∧ namedAt fast.cfg .pitr = (.sys, 0x24) ∧
      pitLoadOf fast.cfg ((fast.setReg16 .sys 0x24 0xFFFF).reg16 .sys fast.cfg.sPicr)
        ((fast.setReg16 .sys 0x24 0xFFFF).reg16 .sys fast.cfg.sPitr)
        (clockOf fast.cfg ((fast.setReg16 .sys 0x24 0xFFFF).reg16 .sys fast.cfg.sSyncr)) > 0x7FFFFFFF) ∧
    ((0xFF93D#32).toNat % 2 = 1 ∧ (0xFF93F#32).toNat % 2 = 1) :=
  ⟨by decide, by unfold Claims; decide, by decide, ⟨inv_wide, by decide⟩, ⟨inv_fast, by decide⟩, by decide⟩

end Sys2Proof.Tests
end

namespace Sys2Proof.Encoding

/-! PROOFS. Encoding (`30_encoding.md`): the fields of a transaction word, what each operand format accepts, and the two
facts about the table of R61: an accepted word is its operation's encoding, an unlisted selector is illegal. -/

open Sys2Proof Sys2Proof.Machine

/-! ### The fields of a transaction word (R60) -/

theorem twOpc_eq (w : BitVec 72) : twOpc w = (w.extractLsb' 32 40).extractLsb' 32 8 := by
  ext i hi
  simp [twOpc, show 32 + i < 40 by omega, ← Nat.add_assoc]

theorem twA_eq (w : BitVec 72) : twA w = (w.extractLsb' 32 40).extractLsb' 0 32 := by
  ext i hi
  simp [twA, show i < 40 by omega]

@[simp] theorem twOpc_append (opc : BitVec 8) (a d : Word) : twOpc (opc ++ a ++ d) = opc := by
  rw [twOpc_eq, extract_append_high (opc ++ a) d, extract_append_high]

@[simp] theorem packTw_fields (w : BitVec 72) : packTw (twOpc w) (twA w) (twD w) = w := by
  rw [packTw, twOpc_eq, twA_eq, append_extract (m := 8) (n := 32)]
  exact append_extract (m := 40) (n := 32) w

/-! ### What each operand format accepts (R60, R63, R67) -/

/-- A word whose bits from `k` on are zero is its low `k` bits, zero-extended. -/
theorem setWidth_extractLsb'_of_high_zero {n k : Nat} {d : BitVec (n + k)} (hd : d.extractLsb' k n = 0) :
    (d.extractLsb' 0 k).setWidth (n + k) = d := by
  calc (d.extractLsb' 0 k).setWidth (n + k)
    _ = d.extractLsb' k n ++ d.extractLsb' 0 k := by rw [hd, BitVec.setWidth_eq_append (by omega)]; simp
    _ = d := append_extract d

theorem portWord_ofBits (b : BitVec 2) : portWord (Port.ofBits b) = b.setWidth 32 := by
  revert b; decide

theorem levelWord_toFin (b : BitVec 3) : levelWord b.toFin = b.setWidth 32 := rfl

/-- Every instruction that the answer `r` of the decoder can be is well formed, and its one word has the selector `n` and
the operand words `a` and `d`. -/
def WordOf (n : Nat) (a d : Word) (r : Except DecodeError Instr) : Prop :=
  ∀ i : Instr, r = .ok i → i.wf = true ∧ encode i = .tw (packTw (BitVec.ofNat 8 n) a d)

section

variable {n : Nat} {a d : Word}

theorem WordOf.error (e : DecodeError) : WordOf n a d (.error e) := nofun

theorem WordOf.ok {i : Instr} (hwf : i.wf = true) (hi : encode i = .tw (packTw (BitVec.ofNat 8 n) a d)) :
    WordOf n a d (.ok i) := by
  rintro _ ⟨⟩; exact ⟨hwf, hi⟩

theorem WordOf.unused {i : Instr} (h : WordOf n a 0 (.ok i)) : WordOf n a d (Sys2Proof.unused d i) := by
  unfold Sys2Proof.unused
  split
  next hd => exact hd ▸ h
  next => exact .error _

theorem WordOf.byteOperand {f : Byte → Instr} (h : ∀ v, WordOf n a (byteWord v) (.ok (f v))) :
    WordOf n a d (Sys2Proof.byteOperand d f) := by
  unfold Sys2Proof.byteOperand
  split
  next hd =>
    have hv := h (d.extractLsb' 0 8)
    rwa [byteWord, setWidth_extractLsb'_of_high_zero (n := 24) hd] at hv
  next => exact .error _

theorem WordOf.halfOperand {f : Half → Instr} (h : ∀ v, WordOf n a (halfWord v) (.ok (f v))) :
    WordOf n a d (Sys2Proof.halfOperand d f) := by
  unfold Sys2Proof.halfOperand
  split
  next hd =>
    have hv := h (d.extractLsb' 0 16)
    rwa [halfWord, setWidth_extractLsb'_of_high_zero (n := 16) hd] at hv
  next => exact .error _

theorem WordOf.portOperand {f : Port → Except DecodeError Instr} (h : ∀ p, WordOf n (portWord p) d (f p)) :
    WordOf n a d (Sys2Proof.portOperand a f) := by
  unfold Sys2Proof.portOperand
  split
  next ha =>
    have hp := h (Port.ofBits (a.extractLsb' 0 2))
    rwa [portWord_ofBits, setWidth_extractLsb'_of_high_zero (n := 30) ha] at hp
  next => exact .error _

theorem WordOf.levelOperand {f : Level → Except DecodeError Instr} (h : ∀ l, WordOf n (levelWord l) d (f l)) :
    WordOf n a d (Sys2Proof.levelOperand a f) := by
  unfold Sys2Proof.levelOperand
  split
  next ha =>
    have hl := h (a.extractLsb' 0 3).toFin
    rwa [levelWord_toFin, setWidth_extractLsb'_of_high_zero (n := 29) ha] at hl
  next => exact .error _

theorem WordOf.noAddress {r : Except DecodeError Instr} (h : WordOf n 0 d r) :
    WordOf n a d (Sys2Proof.noAddress a r) := by
  unfold Sys2Proof.noAddress
  split
  next ha => exact ha ▸ h
  next => exact .error _

end

/-! ### The table of R61 -/

/-- Each row of R61 decodes to the operation whose word it is. Case `h_k` is the `k`-th row of `decodeFields`; the rows are
grouped by their format. -/
theorem wordOf_decodeFields (n : Nat) (a d : Word) : WordOf n a d (decodeFields n a d) := by
  unfold decodeFields
  split
  -- an address: bus reads and fetches, region tests and reads
  case h_1 | h_2 | h_3 | h_7 | h_8 | h_9 | h_10 | h_11 | h_12 | h_13 | h_14 | h_15 | h_16 | h_17 =>
    exact .unused (.ok rfl rfl)
  -- an address and a byte, a 16-bit value or a word: bus and region writes
  case h_4 | h_18 | h_19 | h_20 => exact .byteOperand fun _ => .ok rfl rfl
  case h_5 | h_21 | h_22 | h_23 => exact .halfOperand fun _ => .ok rfl rfl
  case h_6 => exact .ok rfl rfl
  -- a port, with a byte or alone
  case h_24 | h_25 | h_26 | h_28 => exact .portOperand fun _ => .byteOperand fun _ => .ok rfl rfl
  case h_27 => exact .portOperand fun _ => .unused (.ok rfl rfl)
  -- a level, with a vector or alone
  case h_29 | h_30 => exact .levelOperand fun _ => .byteOperand fun _ => .ok rfl rfl
  case h_31 => exact .levelOperand fun _ => .unused (.ok rfl rfl)
  -- no address: no operand, a number of cycles, or an opcode
  case h_32 | h_34 | h_36 | h_37 | h_38 => exact .noAddress (.unused (.ok rfl rfl))
  case h_33 | h_39 | h_40 | h_41 => exact .noAddress (.ok rfl rfl)
  case h_35 => exact .noAddress (.halfOperand fun _ => .ok rfl rfl)
  -- a selector of no row
  case h_42 => exact .error _

/-- An accepted transaction word is the encoding of a well-formed operation. -/
theorem encode_of_decode_tw {w : BitVec 72} {i : Instr} (h : decode (.tw w) = .ok i) :
    i.wf = true ∧ encode i = .tw w := by
  simpa using wordOf_decodeFields (twOpc w).toNat (twA w) (twD w) i h

/-- The selectors of R61, in its order; a region operation has one for each of its three regions. -/
def listedSelectors : List Nat :=
  [0x01, 0x02, 0x04, 0x11, 0x12, 0x14, 0x22, 0x24, 0x28, 0x29, 0x2A, 0x30, 0x31, 0x32, 0x34, 0x35, 0x36,
    0x38, 0x39, 0x3A, 0x3C, 0x3D, 0x3E, 0x50, 0x51, 0x52, 0x53, 0x54, 0x60, 0x61, 0x62, 0x70, 0x71, 0x72, 0x73, 0x74,
    0x75, 0x76, 0x78, 0x79, 0x7A]

theorem decodeFields_of_unlisted {n : Nat} (h : n ∉ listedSelectors) (a d : Word) :
    decodeFields n a d = .error .illegalSelector := by
  unfold decodeFields
  split
  case h_42 => rfl
  all_goals exact absurd (by decide) h

/-! ### A word that is no operation (R66) -/

theorem step_of_decode_error {s : State} {w : OpWord} {later : List Request} {e : DecodeError} (hcfg : s.cfg.WF)
    (hreq : s.requests = .word w :: later) (hw : decode w = .error e) : step s = .refused .illegalOperation := by
  have hfetch : fetch s = .invalid e := by simp [fetch, hreq, hw]
  rw [step, if_pos hcfg, hfetch]

/-! ### The obligations -/

/-- Settles O2: the encoding recovers the word from the operation, so two words of one operation are equal. -/
theorem transactionWordIsTheOnlyOne : Obligations.TransactionWordIsTheOnlyOne := by
  intro w i h
  obtain ⟨hwf, hw⟩ := encode_of_decode_tw h
  refine ⟨hwf, hw, fun w2 h2 => ?_⟩
  obtain ⟨-, hw2⟩ := encode_of_decode_tw h2
  exact OpWord.tw.inj (hw2.symm.trans hw)

/-- Settles O3: the table of R61 has no row for the selector, and the step refuses what the decoder rejects. -/
theorem unlistedSelectorsAreIllegal : Obligations.UnlistedSelectorsAreIllegal := by
  intro opc a d hopc
  have hdecode : decode (.tw (opc ++ a ++ d)) = .error .illegalSelector := by
    rw [decode, decodeTw, twOpc_append]
    exact decodeFields_of_unlisted hopc _ _
  exact ⟨hdecode, fun s later hcfg hreq => step_of_decode_error hcfg hreq hdecode⟩

end Sys2Proof.Encoding

namespace Sys2Proof.RegionAccess

/-! PROOFS. Regions (`40_mmio_region.md`): where the counter and the port data registers lie, what a read sees at one byte,
and what each region operation answers by the place of its address. -/

open Sys2Proof Sys2Proof.Machine Sys2Proof.Encoding

/-! ### Where the counter and the port data registers lie (R22, R23) -/

theorem covers16_iff {x o : Nat} : covers16 x o = true ↔ o = x ∨ o = x + 1 := by simp [covers16]

/-- P6, for the registers that come before the others in the timer region's decode. -/
theorem timer_registers_apart {c : Cfg} (hc : c.WF) :
    c.tPortgp ≠ c.tDdrgp ∧ ∀ o, o = c.tTcnt ∨ o = c.tTcnt + 1 → o ≠ c.tDdrgp ∧ o ≠ c.tPortgp := by
  obtain ⟨-, ⟨hT, -⟩, -⟩ := hc
  simp only [Cfg.spansT, List.pairwise_cons, List.mem_cons, forall_eq_or_imp, Cfg.apart] at hT
  obtain ⟨⟨hdata, hcount, -⟩, ⟨hcount', -⟩, -⟩ := hT
  exact ⟨by omega, fun o ho => by omega⟩

/-- P7, for the offsets of the two port data registers: no register before them in the region's decode has one. -/
theorem sys_registers_apart {c : Cfg} (hc : c.WF) {o : Nat} (ho : o ∈ c.sPorteData ∨ o ∈ c.sPortfData) :
    (o ≠ c.sSyncr ∧ o ≠ c.sSyncr + 1) ∧ o ≠ c.sDdre ∧ o ≠ c.sPepar ∧ (o ∈ c.sPortfData → o ∉ c.sPorteData) := by
  obtain ⟨-, ⟨-, -, hS, -⟩, -⟩ := hc
  obtain ⟨hFixedE, -, hF⟩ := List.pairwise_append.mp hS
  obtain ⟨-, -, hE⟩ := List.pairwise_append.mp hFixedE
  have hdisjoint : o ∈ c.sPortfData → o ∉ c.sPorteData := fun hf he => by
    have h := hF (o, 1) (List.mem_append_right _ (List.mem_map_of_mem he)) (o, 1) (List.mem_map_of_mem hf)
    simp at h
  have hfixed : ∀ x ∈ [(c.sSyncr, 2), (c.sDdre, 1), (c.sPepar, 1), (c.sDdrf, 1), (c.sPfpar, 1), (c.sPicr, 2),
      (c.sPitr, 2)], Cfg.apart x (o, 1) := fun x hx =>
    ho.elim (fun he => hE x hx (o, 1) (List.mem_map_of_mem he))
      (fun hf => hF x (List.mem_append_left _ hx) (o, 1) (List.mem_map_of_mem hf))
  simp only [List.mem_cons, forall_eq_or_imp, Cfg.apart] at hfixed
  obtain ⟨hsyncr, hdir, hassign, -⟩ := hfixed
  exact ⟨by omega, by omega, by omega, hdisjoint⟩

theorem regAt_timer_eq_tcnt {c : Cfg} (hc : c.WF) {o : Nat} :
    regAt c .timer o = some .tcnt ↔ o = c.tTcnt ∨ o = c.tTcnt + 1 := by
  constructor
  · intro h
    simp only [regAt, regAtT] at h
    split_ifs at h with _ _ ho <;> cases h
    exact covers16_iff.mp ho
  · intro ho
    obtain ⟨-, hcount⟩ := timer_registers_apart hc
    simp [regAt, regAtT, hcount o ho, covers16_iff.mpr ho]

theorem regAt_timer_eq_data {c : Cfg} (hc : c.WF) {o : Nat} {p : Port} :
    regAt c .timer o = some (.data p) ↔ p = .gp ∧ o = c.tPortgp := by
  constructor
  · intro h
    simp only [regAt, regAtT] at h
    split_ifs at h with _ ho <;> cases h
    exact ⟨rfl, ho⟩
  · rintro ⟨rfl, rfl⟩
    obtain ⟨hdata, -⟩ := timer_registers_apart hc
    simp [regAt, regAtT, hdata]

theorem regAt_sys_ne_tcnt (c : Cfg) (o : Nat) : regAt c .sys o ≠ some .tcnt := by
  simp only [regAt, regAtS]
  split_ifs <;> exact nofun

theorem regAt_sys_eq_data {c : Cfg} (hc : c.WF) {o : Nat} {p : Port} :
    regAt c .sys o = some (.data p) ↔ p = .e ∧ o ∈ c.sPorteData ∨ p = .f ∧ o ∈ c.sPortfData := by
  constructor
  · intro h
    simp only [regAt, regAtS] at h
    split_ifs at h with _ he _ _ hf <;> cases h
    · exact .inl ⟨rfl, he⟩
    · exact .inr ⟨rfl, hf⟩
  · rintro (⟨rfl, he⟩ | ⟨rfl, hf⟩)
    · obtain ⟨hsyncr, -⟩ := sys_registers_apart hc (.inl he)
      simp [regAt, regAtS, covers16, hsyncr, he]
    · obtain ⟨hsyncr, hdir, hassign, hdisjoint⟩ := sys_registers_apart hc (.inr hf)
      simp [regAt, regAtS, covers16, hsyncr, hdir, hassign, hdisjoint hf, hf]

/-! ### What a read sees at one byte (R86) -/

theorem laneRead_of_tcnt {s : State} {r : Region} {o : Nat} (h : regAt s.cfg r o = some .tcnt) :
    laneRead r o s = if o = s.cfg.tTcnt then hiByte (tcntValue s) else loByte (tcntValue s) := by
  simp [laneRead, h]

theorem laneRead_of_data {s : State} {r : Region} {o : Nat} {p : Port} (h : regAt s.cfg r o = some (.data p)) :
    laneRead r o s = portRead p s := by
  simp [laneRead, h]

theorem laneRead_of_storage {s : State} {r : Region} {o : Nat} (hcount : regAt s.cfg r o ≠ some .tcnt)
    (hdata : ∀ p, regAt s.cfg r o ≠ some (.data p)) : laneRead r o s = s.byteAt r o := by
  unfold laneRead
  split
  next h => exact absurd h hcount
  next p h => exact absurd h (hdata p)
  next => rfl

theorem hiByte_tcntValue (s : State) : hiByte (tcntValue s) = BitVec.ofNat 8 (s.cycles.toNat / 4 / 256) := by
  apply BitVec.eq_of_toNat_eq
  simp [hiByte, tcntValue, Nat.shiftRight_eq_div_pow]
  omega

theorem loByte_tcntValue (s : State) : loByte (tcntValue s) = BitVec.ofNat 8 (s.cycles.toNat / 4) := by
  apply BitVec.eq_of_toNat_eq
  simp [loByte, tcntValue, Nat.shiftRight_eq_div_pow]

/-- Settles O14: the register at the offset decides what the read sees. -/
theorem laneReadByRegister : Obligations.LaneReadByRegister := by
  intro s hc
  refine ⟨?_, ?_, ?_, fun o ho => ?_, fun o ho => ?_, fun o hhi hlo hdata => ?_, fun o he hf => ?_, fun o => ?_⟩
  · rw [laneRead_of_tcnt ((regAt_timer_eq_tcnt hc).mpr (.inl rfl)), if_pos rfl, hiByte_tcntValue]
  · rw [laneRead_of_tcnt ((regAt_timer_eq_tcnt hc).mpr (.inr rfl)), if_neg (by omega), loByte_tcntValue]
  · exact laneRead_of_data ((regAt_timer_eq_data hc).mpr ⟨rfl, rfl⟩)
  · exact laneRead_of_data ((regAt_sys_eq_data hc).mpr (.inl ⟨rfl, ho⟩))
  · exact laneRead_of_data ((regAt_sys_eq_data hc).mpr (.inr ⟨rfl, ho⟩))
  · exact laneRead_of_storage (by simp [regAt_timer_eq_tcnt hc, hhi, hlo]) (by simp [regAt_timer_eq_data hc, hdata])
  · exact laneRead_of_storage (regAt_sys_ne_tcnt _ _) (by simp [regAt_sys_eq_data hc, he, hf])
  · exact laneRead_of_storage nofun nofun

/-! ### The region operations by the place of their address (R81 to R85, R43, R88) -/

theorem inRange_iff {c : Cfg} {r : Region} {a : Nat} : inRange c r a = true ↔ Claims c r a := by
  simp [inRange, Claims]

section

variable (r : Region) (addr : Word) (s : State)

theorem exec_inrangeOf : exec (inrangeOf r addr) s = regionInrange r addr s := by cases r <;> rfl
theorem exec_r8Of : exec (r8Of r addr) s = regionR8 r addr s := by cases r <;> rfl
theorem exec_r16Of : exec (r16Of r addr) s = regionR16 r addr s := by cases r <;> rfl
theorem exec_w8Of (v : Byte) : exec (w8Of r addr v) s = regionW8 r addr v s := by cases r <;> rfl
theorem exec_w16Of (v : Half) : exec (w16Of r addr v) s = regionW16 r addr v s := by cases r <;> rfl

end

section

variable {r : Region} {addr : Word} {s : State}

theorem exec_r8Of_of_claims (h : Claims s.cfg r addr.toNat) : exec (r8Of r addr) s =
    .next (s.setResult (.byte (laneRead r (addr.toNat - regionBase s.cfg r) s))) := by
  rw [exec_r8Of, regionR8, if_pos (inRange_iff.mpr h), offsetIn]

theorem exec_r8Of_outside (h : ¬ Claims s.cfg r addr.toNat) : exec (r8Of r addr) s = .refused .outOfRange := by
  rw [exec_r8Of, regionR8, if_neg (mt inRange_iff.mp h)]

theorem exec_w8Of_of_claims (h : Claims s.cfg r addr.toNat) (v : Byte) : exec (w8Of r addr v) s =
    finish (regionWrite8 r (addr.toNat - regionBase s.cfg r) v s) := by
  rw [exec_w8Of, regionW8, if_pos (inRange_iff.mpr h), offsetIn]

theorem exec_w8Of_outside (h : ¬ Claims s.cfg r addr.toNat) (v : Byte) :
    exec (w8Of r addr v) s = .refused .outOfRange := by
  rw [exec_w8Of, regionW8, if_neg (mt inRange_iff.mp h)]

theorem exec_r16Of_of_odd (h : addr.toNat % 2 = 1) : exec (r16Of r addr) s = .refused .misaligned := by
  rw [exec_r16Of, regionR16, if_pos h]

theorem exec_w16Of_of_odd (h : addr.toNat % 2 = 1) (v : Half) : exec (w16Of r addr v) s = .refused .misaligned := by
  rw [exec_w16Of, regionW16, if_pos h]

/-- The range test of a 16-bit operation. -/
theorem inRange_and_iff {c : Cfg} {a : Nat} :
    (inRange c r a && inRange c r (a + 1)) = true ↔ Claims c r a ∧ Claims c r (a + 1) := by
  rw [Bool.and_eq_true, inRange_iff, inRange_iff]

theorem exec_r16Of_of_claims (heven : addr.toNat % 2 = 0)
    (h : Claims s.cfg r addr.toNat ∧ Claims s.cfg r (addr.toNat + 1)) : exec (r16Of r addr) s =
      .next (s.setResult (.half (regionRead16 r (addr.toNat - regionBase s.cfg r) s))) := by
  rw [exec_r16Of, regionR16, if_neg (by omega), if_pos (inRange_and_iff.mpr h), offsetIn]

theorem exec_r16Of_outside (heven : addr.toNat % 2 = 0)
    (h : ¬ (Claims s.cfg r addr.toNat ∧ Claims s.cfg r (addr.toNat + 1))) :
    exec (r16Of r addr) s = .refused .outOfRange := by
  rw [exec_r16Of, regionR16, if_neg (by omega), if_neg (mt inRange_and_iff.mp h)]

theorem exec_w16Of_of_claims (heven : addr.toNat % 2 = 0)
    (h : Claims s.cfg r addr.toNat ∧ Claims s.cfg r (addr.toNat + 1)) (v : Half) : exec (w16Of r addr v) s =
      finish (regionWrite16 r (addr.toNat - regionBase s.cfg r) v s) := by
  rw [exec_w16Of, regionW16, if_neg (by omega), if_pos (inRange_and_iff.mpr h), offsetIn]

theorem exec_w16Of_outside (heven : addr.toNat % 2 = 0)
    (h : ¬ (Claims s.cfg r addr.toNat ∧ Claims s.cfg r (addr.toNat + 1))) (v : Half) :
    exec (w16Of r addr v) s = .refused .outOfRange := by
  rw [exec_w16Of, regionW16, if_neg (by omega), if_neg (mt inRange_and_iff.mp h)]

end

@[simp] theorem twA_append (opc : BitVec 8) (a d : Word) : twA (opc ++ a ++ d) = a := by
  rw [twA_eq, extract_append_high (opc ++ a) d, extract_append_low]

@[simp] theorem twD_append (opc : BitVec 8) (a d : Word) : twD (opc ++ a ++ d) = d := extract_append_low (opc ++ a) d

/-- Decoding a word by the fields it was built from (R60). -/
theorem hasWord_iff {opc : BitVec 8} {a d : Word} {i : Instr} :
    HasWord opc a d i ↔ decodeFields opc.toNat a d = .ok i := by
  rw [HasWord, decode, decodeTw, twOpc_append, twA_append, twD_append]

/-- Settles O15: the words are rows of R61, and each operation answers by the place of its address. -/
theorem regionRangeTestAndReads : Obligations.RegionRangeTestAndReads := by
  refine ⟨fun r addr => ?_, ⟨⟨rfl, rfl, rfl⟩, fun r addr s => ?_⟩, fun r addr s => ⟨?_, ?_, ?_, ?_, ?_⟩⟩
  · simp only [hasWord_iff]
    cases r <;> exact ⟨rfl, rfl, rfl⟩
  · exact ⟨inRange s.cfg r addr.toNat, exec_inrangeOf r addr s, inRange_iff⟩
  · exact exec_r8Of_of_claims
  · exact fun h h1 heven => exec_r16Of_of_claims heven ⟨h, h1⟩
  · exact exec_r8Of_outside
  · exact fun hodd _ => exec_r16Of_of_odd hodd
  · exact exec_r16Of_outside

/-- Settles O19: an operation is refused by the place of its address; a 16-bit one at an odd address names the oddness. -/
theorem regionAccessOutsideIsRefused : Obligations.RegionAccessOutsideIsRefused := by
  intro s r addr
  refine ⟨fun h => ⟨exec_r8Of_outside h, exec_w8Of_outside h⟩,
    fun heven h => ⟨exec_r16Of_outside heven h, exec_w16Of_outside heven h⟩,
    fun hodd _ _ => ⟨exec_r16Of_of_odd hodd, exec_w16Of_of_odd hodd⟩, fun hodd _ v i hi => .inl ?_⟩
  simp only [List.mem_cons, List.not_mem_nil, or_false] at hi
  obtain rfl | rfl := hi
  · exact exec_r16Of_of_odd hodd
  · exact exec_w16Of_of_odd hodd v

/-! ### Plain storage (R80, R117) -/

/-- A byte of no register, or of the mask register, whose write has no side effect. -/
def Plain (g : Option Reg) : Prop := g = none ∨ g = some .tmsk

theorem storeByte_of_ne_tcnt {s : State} (hc : s.cfg.WF) {r : Region} {o : Nat} (h : regAt s.cfg r o ≠ some .tcnt)
    (b : Byte) : storeByte r o b s = s.setByte r o b := by
  refine if_neg ?_
  rintro ⟨rfl, hcov⟩
  exact h ((regAt_timer_eq_tcnt hc).mpr (covers16_iff.mp hcov))

theorem Plain.ne_tcnt {g : Option Reg} (h : Plain g) : g ≠ some .tcnt := by rintro rfl; simp [Plain] at h

theorem Plain.laneRead {s : State} {r : Region} {o : Nat} (h : Plain (regAt s.cfg r o)) :
    Machine.laneRead r o s = s.byteAt r o :=
  laneRead_of_storage h.ne_tcnt fun p hp => by simp [Plain, hp] at h

theorem Plain.sideEffect {g : Option Reg} (h : Plain g) (r : Region) (o : Nat) (s : State) :
    Machine.sideEffect r o g s = .ok s := by
  obtain rfl | rfl := h <;> rfl

section

variable {s : State} (hc : s.cfg.WF) {r : Region} {o : Nat} (h : Plain (regAt s.cfg r o))

include hc h

theorem regionWrite8_of_plain (v : Byte) : regionWrite8 r o v s = .ok (s.setByte r o v) := by
  rw [regionWrite8, h.sideEffect, storeByte_of_ne_tcnt hc h.ne_tcnt]

theorem regionWrite16_of_plain (h1 : Plain (regAt s.cfg r (o + 1))) (v : Half) :
    regionWrite16 r o v s = .ok (s.setReg16 r o v) := by
  have hstored : storeByte r (o + 1) (loByte v) (storeByte r o (hiByte v) s) = s.setReg16 r o v := by
    rw [storeByte_of_ne_tcnt hc h.ne_tcnt,
      storeByte_of_ne_tcnt (by rwa [setByte_cfg]) (by rw [setByte_cfg]; exact h1.ne_tcnt), State.setReg16]
  simp [regionWrite16, hstored, h.sideEffect, h1.sideEffect]

end

/-! ### What a store leaves of the storages -/

section

variable {s : State} {r : Region} (h : s.sorted r) (o : Nat) (x : Result)

include h

theorem sameStorageBut_setByte (b : Byte) : SameStorageBut r o 1 s ((s.setByte r o b).setResult x) := by
  intro r1 o1 hout
  rw [setResult_byteAt, setByte_byteAt h, if_neg fun ⟨hr, ho⟩ => hout ⟨hr, by omega⟩]

theorem sameStorageBut_setReg16 (v : Half) : SameStorageBut r o 2 s ((s.setReg16 r o v).setResult x) := by
  intro r1 o1 hout
  rw [setResult_byteAt, setReg16_byteAt h, if_neg fun ⟨hr, ho⟩ => hout ⟨hr, by omega⟩,
    if_neg fun ⟨hr, ho⟩ => hout ⟨hr, by omega⟩]

end

/-- Settles O16: at a plain byte a read sees the storage, and a write stores and has no side effect. -/
theorem regionWritesStorePlainBytes : Obligations.RegionWritesStorePlainBytes := by
  rintro r addr s o hinv rfl hin (hplain : Plain _)
  have hsorted : s.sorted r := (hinv.storage r).1
  refine ⟨?_, fun v => ⟨_, ?_, rfl, ?_, sameStorageBut_setByte hsorted _ _ v⟩, fun v hin1 heven (hplain1 : Plain _) =>
    ⟨?_, _, ?_, rfl, ?_, ?_, sameStorageBut_setReg16 hsorted _ _ v⟩⟩
  · rw [exec_r8Of_of_claims hin, hplain.laneRead]
  · rw [exec_w8Of_of_claims hin, regionWrite8_of_plain hinv.config hplain, finish_ok]
  · simp [setByte_byteAt hsorted]
  · rw [exec_r16Of_of_claims heven ⟨hin, hin1⟩, regionRead16, hplain.laneRead, hplain1.laneRead, joinBytes]
  · rw [exec_w16Of_of_claims heven ⟨hin, hin1⟩, regionWrite16_of_plain hinv.config hplain hplain1, finish_ok]
  · simp [setReg16_byteAt hsorted, hiByte]
  · simp [setReg16_byteAt hsorted, loByte]

end Sys2Proof.RegionAccess

namespace Sys2Proof.PortAccess

/-! PROOFS. Ports (`41_gpio_port.md`): the words of the port operations, what a masked write leaves bit by bit, and what each
operation leaves of the state. -/

open Sys2Proof Sys2Proof.Machine Sys2Proof.RegionAccess

/-! ### The words of the port operations (R60, R61) -/

theorem portOperand_portWord (p : Port) (f : Port → Except DecodeError Instr) :
    portOperand (portWord p) f = f p := by
  cases p <;> rfl

theorem byteOperand_byteWord (v : Byte) (f : Byte → Instr) : byteOperand (byteWord v) f = .ok (f v) := by
  have hv : byteWord v = (0 : BitVec 24) ++ v := by simp [byteWord, BitVec.setWidth_eq_append]
  rw [byteOperand, hv, extract_append_high, if_pos rfl, extract_append_low]

/-- An operand pair of a port and a byte, as the four rows that have one read it. -/
theorem portOperand_byteOperand (p : Port) (v : Byte) (f : Port → Byte → Instr) :
    portOperand (portWord p) (fun q => byteOperand (byteWord v) (f q)) = .ok (f p v) := by
  rw [portOperand_portWord, byteOperand_byteWord]

/-! ### Masked writes, bit by bit -/

/-- Under the mask `m` the bits are those of `b`, elsewhere those of `x`. -/
theorem masked_getLsbD (x b m : Byte) {i : Nat} (hi : i < 8) :
    ((x &&& ~~~m) ||| (b &&& m)).getLsbD i = if m.getLsbD i then b.getLsbD i else x.getLsbD i := by
  simp only [BitVec.getLsbD_or, BitVec.getLsbD_and, BitVec.getLsbD_not, hi]
  cases m.getLsbD i <;> simp

theorem txData_getLsbD (q : PortState) (b : Byte) {i : Nat} (hi : i < 8) :
    (txData q b).getLsbD i =
      if q.direction.getLsbD i && q.enabledPins.getLsbD i then b.getLsbD i else q.data.getLsbD i := by
  rw [txData, masked_getLsbD _ _ _ hi, BitVec.getLsbD_and]

/-! ### Emitting as an operation's last act -/

theorem reacted_setResult {s t : State} (h : Reacted s t) (x : Result) : Reacted (s.setResult x) (t.setResult x) :=
  { h with result := rfl }

/-- An operation that ends in an event completes; with no listener the event on the trace is all. -/
theorem finish_emit {s : State} (hs : s.orderly) (e : Event) : ∃ t, finish (emit e s) = .next t ∧
    Reacted ((s.log e).setResult .none) t ∧ (s.quiet → t = (s.log e).setResult .none) := by
  obtain ⟨u, hu⟩ := emit_completes hs e
  refine ⟨u.setResult .none, by rw [hu, finish_ok], reacted_setResult (emit_reacted hu) _, fun hq => ?_⟩
  rw [emit_quiet hq, Except.ok.injEq] at hu
  rw [hu]

theorem setPort_orderly {s : State} (hs : s.orderly) (p : Port) (v : PortState) : (s.setPort p v).orderly := by
  simpa [State.orderly] using hs

theorem setPort_quiet {s : State} (hq : s.quiet) (p : Port) (v : PortState) : (s.setPort p v).quiet := by
  simpa [State.quiet] using hq

/-- Settles O20: the direction is set before the event, and a listener cannot set it (`Reacted.direction`). -/
theorem setDirection : Obligations.SetDirection := by
  intro p m s
  refine ⟨hasWord_iff.mpr (portOperand_byteOperand p m .pSetdir), fun hs => ?_⟩
  obtain ⟨t, ht, hr, hq⟩ := finish_emit (setPort_orderly hs p { s.port p with direction := m }) (.dirChange p m)
  refine ⟨t, ht, hr, fun h => hq (setPort_quiet h p _), ?_, ?_, ?_, fun r o => ?_⟩
  · rw [hr.direction]; simp
  · rw [hr.enabledPins]; simp
  · rw [hr.writeCounter]; simp
  · rw [hr.sameStorage]; simp

/-! ### The transmit write (R91) -/

/-- The state at the end of the three steps of R91, before any listener acts: data `d`, counter `w`, and the event; `n` free
values have been drawn. -/
def transmitted (p : Port) (d : Byte) (w : BitVec 64) (n : Nat) (s : State) : State :=
  { (s.setPort p { s.port p with data := d, writeCounter := w }).log (.txWrite p d) with freeCount := n }

section

variable (p : Port) (d : Byte) (w : BitVec 64) (n : Nat) (s : State)

@[simp] theorem transmitted_port (q : Port) : (transmitted p d w n s).port q =
    if q = p then { s.port p with data := d, writeCounter := w } else s.port q := by
  rw [← setPort_port]; cases q <;> rfl

@[simp] theorem transmitted_byteAt (r : Region) (o : Nat) : (transmitted p d w n s).byteAt r o = s.byteAt r o := by
  rw [← setPort_byteAt s p { s.port p with data := d, writeCounter := w }]; cases r <;> rfl

@[simp] theorem transmitted_out : (transmitted p d w n s).out = s.out ++ [.txWrite p d] := by simp [transmitted]

theorem transmitted_samePortsBut : SamePortsBut p s (transmitted p d w n s) := fun q hq => by simp [hq]

theorem transmitted_sameTimers : SameTimers s (transmitted p d w n s) := by simp [SameTimers, transmitted]

theorem transmitted_sameClock : SameClock s (transmitted p d w n s) := by simp [SameClock, transmitted]

theorem transmitted_sameQueues : SameQueues s (transmitted p d w n s) := by simp [SameQueues, transmitted]

theorem transmitted_sameEnvironment : SameEnvironment s (transmitted p d w n s) := by
  have hhook (q : Port) : (transmitted p d w n s).hook q = s.hook q := by
    rw [← setPort_hook s p { s.port p with data := d, writeCounter := w }]; cases q <;> rfl
  exact ⟨by simp [transmitted], hhook, by simp [transmitted], by simp [transmitted], by simp [transmitted],
    by simp [transmitted]⟩

end

theorem setPort_setPort (s : State) (p : Port) (v w : PortState) : (s.setPort p v).setPort p w = s.setPort p w := by
  cases p <;> rfl

/-- Data, counter and event of a transmit write, and the counter's next value below its end (R91). -/
theorem log_bumpWriteCounter_eq (p : Port) (d : Byte) (s : State) :
    ∃ w n, (bumpWriteCounter p (s.setPort p { s.port p with data := d })).log (.txWrite p d) = transmitted p d w n s ∧
      ((s.port p).writeCounter.toNat < 2 ^ 64 - 1 →
        w.toNat = (s.port p).writeCounter.toNat + 1 ∧ n = s.freeCount) := by
  obtain ⟨w, n, hbump, hnext⟩ := bumpWriteCounter_eq p (s.setPort p { s.port p with data := d })
  refine ⟨w, n, ?_, fun hlt => ?_⟩
  · rw [hbump, setPort_setPort, setPort_port, if_pos rfl]; rfl
  · have hne : (s.port p).writeCounter ≠ BitVec.allOnes 64 := fun h => by simp [h] at hlt
    simp only [setPort_port, if_true, setPort_freeCount] at hnext
    obtain ⟨rfl, rfl⟩ := hnext hne
    exact ⟨by rw [BitVec.toNat_add]; simp; omega, rfl⟩

/-- Settles O21: the state the event finds is that of the three steps of R91. -/
theorem writeTx : Obligations.WriteTx := by
  intro p b s
  refine ⟨hasWord_iff.mpr (portOperand_byteOperand p b .pWritetx), fun hs => ?_⟩
  obtain ⟨w, n, hstate, hcount⟩ := log_bumpWriteCounter_eq p (txData (s.port p) b) s
  obtain ⟨t, ht, hr, hq⟩ := finish_emit
    (s := bumpWriteCounter p (s.setPort p { s.port p with data := txData (s.port p) b }))
    (by simpa [State.orderly] using hs) (.txWrite p (txData (s.port p) b))
  rw [hstate] at hr hq
  refine ⟨txData (s.port p) b, w, n, t, ht, fun i hi => txData_getLsbD _ _ hi, hcount, hr,
    fun h => hq (by simpa [State.quiet] using h), fun r o => ?_⟩
  rw [hr.sameStorage, setResult_byteAt, transmitted_byteAt]

/-! ### The operations without an event (R92 to R94) -/

/-- Settles O22: the mask of R92 is the enabled input pins. -/
theorem writeRx : Obligations.WriteRx := by
  intro p b s
  refine ⟨hasWord_iff.mpr (portOperand_byteOperand p b .pWriterx), _, rfl, fun i hi => ?_⟩
  rw [masked_getLsbD _ _ _ hi, BitVec.getLsbD_and, BitVec.getLsbD_not]
  simp [hi]

/-- Settles O23: a read hands the data to the hook; enabling is one update of the port. -/
theorem portReadAndEnable : Obligations.PortReadAndEnable := by
  intro p s
  have hread : exec (.pRead p) s = .next (s.setResult (.byte (hookValue (s.hook p) (s.port p).data))) := rfl
  refine ⟨hasWord_iff.mpr (portOperand_portWord p fun q => unused 0 (.pRead q)), hread,
    fun hid => by rw [hread, hid, hookValue], fun m =>
    ⟨hasWord_iff.mpr (portOperand_byteOperand p m .pEnable), (portEnable p m s).setResult .none, rfl, ?_,
      fun q hq => ?_, ?_⟩⟩
  · simp [portEnable]
  · simp [portEnable, hq]
  · simp [portEnable]

end Sys2Proof.PortAccess

namespace Sys2Proof.NamedRegisters

/-! PROOFS. Port registers by name (`30_encoding.md` R64, R70; `41_gpio_port.md` R96 to R99): where a name's address leads,
which register stands there, and what a byte written there does. -/

open Sys2Proof Sys2Proof.Machine Sys2Proof.RegionAccess Sys2Proof.PortAccess

/-! ### Routing (R166) -/

/-- P5: the windows are disjoint. -/
theorem claims_unique {c : Cfg} (hc : c.WF) {r r1 : Region} {a : Nat} (h : Claims c r a) (h1 : Claims c r1 a) :
    r = r1 := by
  obtain ⟨⟨-, -, -, -, -, -, hTS, hTQ, hSQ⟩, -⟩ := hc
  simp only [Claims, Cfg.apart] at *
  cases r <;> cases r1 <;> simp only [regionBase, regionSize, reduceCtorEq] at * <;> omega

theorem route_of_claims {c : Cfg} (hc : c.WF) {r : Region} {a : Nat} (h : Claims c r a) : route c a = some r := by
  have hin (r1 : Region) : inRange c r1 a = true ↔ r1 = r :=
    inRange_iff.trans ⟨fun h1 => claims_unique hc h1 h, fun h1 => h1 ▸ h⟩
  simp only [route, hin]
  cases r <;> rfl

theorem claims_lt {c : Cfg} (hc : c.WF) {r : Region} {a : Nat} (h : Claims c r a) : a < 2 ^ 20 := by
  obtain ⟨⟨-, -, -, hT, hS, hQ, -⟩, -⟩ := hc
  obtain ⟨-, h⟩ := h
  cases r <;> simp only [regionBase, regionSize] at h <;> omega

theorem busMask_ofNat {a : Nat} (h : a < 2 ^ 20) : busMask (BitVec.ofNat 32 a) = a := by
  simp [busMask]; omega

/-! ### Where a named register lies (P6, P7) -/

theorem headD_mem {l : List Nat} (h : l ≠ []) : l.headD 0 ∈ l := by
  cases l with
  | nil => exact absurd rfl h
  | cons x l => simp

theorem getD_one_mem {l : List Nat} (h : l ≠ []) : l.getD 1 (l.headD 0) ∈ l := by
  match l with
  | [] => exact absurd rfl h
  | [x] => simp
  | x :: y :: l => simp

/-- A name's first byte lies in its region's window. -/
theorem namedAt_claims {c : Cfg} (hc : c.WF) {n : RegName} {r : Region} {x : Nat} (hn : namedAt c n = (r, x)) :
    Claims c r (regionBase c r + x) := by
  obtain ⟨-, ⟨-, hT, -, hS, hneE, -, hneF, -⟩, -⟩ := hc
  have hE (o : Nat) (ho : o ∈ c.sPorteData) := (hS (o, 1) (by simp [Cfg.spansS, ho])).1
  have hF (o : Nat) (ho : o ∈ c.sPortfData) := (hS (o, 1) (by simp [Cfg.spansS, ho])).1
  have hE0 := hE _ (headD_mem hneE)
  have hE1 := hE _ (getD_one_mem hneE)
  have hF0 := hF _ (headD_mem hneF)
  have hF1 := hF _ (getD_one_mem hneF)
  simp only [Cfg.spansT, List.forall_mem_cons] at hT
  simp only [Cfg.spansS, List.forall_mem_append, List.forall_mem_cons] at hS
  have hlt : x < regionSize r := by
    cases n <;> cases hn <;> simp only [regionSize] <;> omega
  exact ⟨by omega, by omega⟩

/-- P7, for the direction and pin-assignment registers: each offset is no other one's, no port data register's, and no byte
of `SYNCR`. -/
theorem sys_port_registers_apart {c : Cfg} (hc : c.WF) :
    (∀ o ∈ [c.sDdre, c.sPepar, c.sDdrf, c.sPfpar], covers16 c.sSyncr o = false ∧ o ∉ c.sPorteData ∧ o ∉ c.sPortfData) ∧
      [c.sPfpar, c.sDdrf, c.sPepar, c.sDdre].Nodup := by
  obtain ⟨-, ⟨-, -, hS, -⟩, -⟩ := hc
  obtain ⟨hFixedE, -, hF⟩ := List.pairwise_append.mp hS
  obtain ⟨hfixed, -, hE⟩ := List.pairwise_append.mp hFixedE
  have hmem (o : Nat) (ho : o ∈ [c.sDdre, c.sPepar, c.sDdrf, c.sPfpar]) : (o, 1) ∈ [(c.sSyncr, 2), (c.sDdre, 1),
      (c.sPepar, 1), (c.sDdrf, 1), (c.sPfpar, 1), (c.sPicr, 2), (c.sPitr, 2)] := by
    simp only [List.mem_cons, List.not_mem_nil, or_false] at ho
    rcases ho with rfl | rfl | rfl | rfl <;> simp
  refine ⟨fun o ho => ⟨?_, fun he => ?_, fun hf => ?_⟩, ?_⟩
  · have hsyncr := List.rel_of_pairwise_cons hfixed
      (List.mem_of_ne_of_mem (fun h => by simp at h) (hmem o ho))
    simp only [Cfg.apart] at hsyncr
    simp only [covers16, Bool.or_eq_false_iff, decide_eq_false_iff_not]
    omega
  · have h := hE (o, 1) (hmem o ho) (o, 1) (List.mem_map_of_mem he)
    simp at h
  · have h := hF (o, 1) (List.mem_append_left _ (hmem o ho)) (o, 1) (List.mem_map_of_mem hf)
    simp at h
  · simp only [List.pairwise_cons, List.forall_mem_cons, Cfg.apart] at hfixed
    simp only [List.nodup_cons, List.mem_cons, List.not_mem_nil, or_false, List.nodup_nil, not_false_eq_true, and_true]
    omega

/-! ### Which register a name is (R22, R23) -/

theorem regAt_sys_port_registers {c : Cfg} (hc : c.WF) :
    regAt c .sys c.sDdre = some (.dir .e) ∧ regAt c .sys c.sPepar = some (.assign .e) ∧
      regAt c .sys c.sDdrf = some (.dir .f) ∧ regAt c .sys c.sPfpar = some (.assign .f) := by
  obtain ⟨hapart, hnodup⟩ := sys_port_registers_apart hc
  simp only [List.nodup_cons, List.mem_cons, List.not_mem_nil, or_false, not_or] at hapart hnodup
  refine ⟨?_, ?_, ?_, ?_⟩ <;> simp [regAt, regAtS, hapart, hnodup]

theorem regAt_of_directionPort {c : Cfg} (hc : c.WF) {n : RegName} {p : Port} (hp : directionPort n = some p)
    {r : Region} {x : Nat} (hn : namedAt c n = (r, x)) : regAt c r x = some (.dir p) := by
  obtain ⟨hddre, -, hddrf, -⟩ := regAt_sys_port_registers hc
  cases n <;> cases hp <;> cases hn
  case ddrgp => exact if_pos rfl
  case ddre => exact hddre
  case ddrf => exact hddrf

theorem regAt_of_assignPort {c : Cfg} (hc : c.WF) {n : RegName} {p : Port} (hp : assignPort n = some p)
    {r : Region} {x : Nat} (hn : namedAt c n = (r, x)) : regAt c r x = some (.assign p) := by
  obtain ⟨-, hpepar, -, hpfpar⟩ := regAt_sys_port_registers hc
  cases n <;> cases hp <;> cases hn
  case pepar => exact hpepar
  case pfpar => exact hpfpar

theorem regAt_of_dataPort {c : Cfg} (hc : c.WF) {n : RegName} {p : Port} (hp : dataPort n = some p)
    {r : Region} {x : Nat} (hn : namedAt c n = (r, x)) : regAt c r x = some (.data p) := by
  obtain ⟨-, ⟨-, -, -, -, hneE, -, hneF, -⟩, -⟩ := id hc
  cases n <;> cases hp <;> cases hn
  case portgp => exact (regAt_timer_eq_data hc).mpr ⟨rfl, rfl⟩
  case porte0 => exact (regAt_sys_eq_data hc).mpr (.inl ⟨rfl, headD_mem hneE⟩)
  case porte1 => exact (regAt_sys_eq_data hc).mpr (.inl ⟨rfl, getD_one_mem hneE⟩)
  case portf0 => exact (regAt_sys_eq_data hc).mpr (.inr ⟨rfl, headD_mem hneF⟩)
  case portf1 => exact (regAt_sys_eq_data hc).mpr (.inr ⟨rfl, getD_one_mem hneF⟩)

/-! ### Byte accesses by name (R70) -/

theorem exec_named (n : RegName) (acc : RegAccess) (s : State) : exec (n.instr acc) s = accessRegister n acc s := by
  cases n <;> rfl

section

variable {s : State} (hc : s.cfg.WF) {n : RegName} {r : Region} {x : Nat} (hn : namedAt s.cfg n = (r, x))

include hc hn

theorem busMask_laneAddress : busMask (laneAddress s.cfg n false) = regionBase s.cfg r + x := by
  have hlane : laneAddress s.cfg n false = BitVec.ofNat 32 (regionBase s.cfg r + x) := by
    simp [laneAddress, namedAddress, hn]
  rw [hlane, busMask_ofNat (claims_lt hc (namedAt_claims hc hn))]

theorem exec_named_read8 :
    exec (n.instr (.read8 false)) s = .next (s.setResult (.byte (laneRead r x s))) := by
  have hbus : busRead8 (laneAddress s.cfg n false) s = laneRead r x s := by
    rw [busRead8, busMask_laneAddress hc hn, route_of_claims hc (namedAt_claims hc hn)]
    simp [offsetIn]
  rw [exec_named, accessRegister, hbus]

theorem exec_named_write8 (v : Byte) :
    exec (n.instr (.write8 false v)) s = finish (regionWrite8 r x v s) := by
  have hbus : busWrite8 (laneAddress s.cfg n false) v s = regionWrite8 r x v s := by
    rw [busWrite8, busMask_laneAddress hc hn, route_of_claims hc (namedAt_claims hc hn)]
    simp [offsetIn]
  rw [exec_named, accessRegister, hbus]

end

/-! ### A byte written to a port register (R87, R96, R98, R99) -/

section

variable {s : State} (hinv : s.Inv) {r : Region} {x : Nat} {p : Port} (v : Byte)

include hinv

theorem setByte_byteAt_self : (s.setByte r x v).byteAt r x = v := by
  simp [setByte_byteAt (hinv.storage r).1]

/-- A byte that is none of `Tcnt`'s is stored; then its register's side effect runs (R87). -/
theorem regionWrite8_of_ne_tcnt {g : Option Reg} (hg : regAt s.cfg r x = g) (hne : g ≠ some .tcnt) :
    regionWrite8 r x v s = sideEffect r x g (s.setByte r x v) := by
  subst hg
  rw [regionWrite8, storeByte_of_ne_tcnt hinv.config hne]

theorem regionWrite8_of_dir (hg : regAt s.cfg r x = some (.dir p)) :
    regionWrite8 r x v s = portSetDir p v (s.setByte r x v) := by
  rw [regionWrite8_of_ne_tcnt hinv v hg nofun, sideEffect, setByte_byteAt_self hinv]

theorem regionWrite8_of_assign (hg : regAt s.cfg r x = some (.assign p)) :
    regionWrite8 r x v s = .ok (portEnable p (~~~v) (s.setByte r x v)) := by
  rw [regionWrite8_of_ne_tcnt hinv v hg nofun, sideEffect, setByte_byteAt_self hinv]

theorem regionWrite8_of_data (hg : regAt s.cfg r x = some (.data p)) :
    regionWrite8 r x v s = portWriteTx p v (s.setByte r x v) := by
  rw [regionWrite8_of_ne_tcnt hinv v hg nofun, sideEffect, setByte_byteAt_self hinv]

/-- After a store, whatever keeps the storages leaves the byte stored and every other byte as it was. -/
theorem stored_of_sameStorage {t : State} (ht : SameStorage (s.setByte r x v) t) :
    t.byteAt r x = v ∧ SameStorageBut r x 1 s t :=
  ⟨(ht r x).trans (setByte_byteAt_self hinv v), fun r1 o hout =>
    (ht r1 o).trans (sameStorageBut_setByte (hinv.storage r).1 x .none v r1 o hout)⟩

end

section

variable {s : State} (r : Region) (x : Nat) (v : Byte)

@[simp] theorem setByte_port (p : Port) : (s.setByte r x v).port p = s.port p := by rw [setByte_eq, setStor_port]

theorem setByte_orderly (hs : s.orderly) : (s.setByte r x v).orderly := by
  simpa [State.orderly, setByte_eq] using hs

theorem setByte_quiet (hs : s.quiet) : (s.setByte r x v).quiet := by
  simpa [State.quiet, setByte_eq] using hs

end

/-! ### The obligations -/

/-- Settles O37: a write is the port operation of R90 or R94 on the state that has the byte stored; a read sees storage. -/
theorem directionAndAssignmentRegisters : Obligations.DirectionAndAssignmentRegisters := by
  refine ⟨fun n p s r x hp hinv hn => ?_, fun n p s r x hp hinv hn => ?_⟩
  · have hg := regAt_of_directionPort hinv.config hp hn
    refine ⟨?_, ?_⟩
    · rw [exec_named_read8 hinv.config hn, laneRead_of_storage (by simp [hg]) (by simp [hg])]
    · rintro v u hs rfl
      obtain ⟨-, hset⟩ := setDirection p v (s.setByte r x v)
      obtain ⟨t, ht, hr, hq, hdir, -, -, hstor⟩ := hset (setByte_orderly r x v hs)
      rw [setByte_port] at hr hq
      obtain ⟨hbyte, hbut⟩ := stored_of_sameStorage hinv v hstor
      refine ⟨t, ?_, hbyte, hbut, hdir, hr, fun h => hq (setByte_quiet r x v h)⟩
      rw [exec_named_write8 hinv.config hn, regionWrite8_of_dir hinv v hg]
      exact ht
  · have hg := regAt_of_assignPort hinv.config hp hn
    refine ⟨?_, fun v => ?_⟩
    · rw [exec_named_read8 hinv.config hn, laneRead_of_storage (by simp [hg]) (by simp [hg])]
    · obtain ⟨hbyte, hbut⟩ := stored_of_sameStorage hinv (r := r) (x := x) v
        (t := (portEnable p (~~~v) (s.setByte r x v)).setResult .none) fun r1 o => by simp [portEnable]
      refine ⟨_, ?_, hbyte, hbut, fun i hi => ?_, by simp [portEnable]⟩
      · rw [exec_named_write8 hinv.config hn, regionWrite8_of_assign hinv v hg, finish_ok]
      · simp [portEnable, hi]

/-- Settles O38: a write is the transmit write of R91 on the state that has the byte stored. -/
theorem dataRegisters : Obligations.DataRegisters := by
  intro n p s r x hp hinv hn
  have hg := regAt_of_dataPort hinv.config hp hn
  refine ⟨?_, fun v hs => ?_⟩
  · rw [exec_named_read8 hinv.config hn, laneRead_of_data hg, portRead]
  · have hexec : exec (n.instr (.write8 false v)) s = exec (.pWritetx p v) (s.setByte r x v) := by
      rw [exec_named_write8 hinv.config hn, regionWrite8_of_data hinv v hg]
      rfl
    obtain ⟨-, hwrite⟩ := writeTx p v (s.setByte r x v)
    obtain ⟨d, w, k, t, ht, hbits, -, hr, hq, hstor⟩ := hwrite (setByte_orderly r x v hs)
    change Reacted ((transmitted p d w k (s.setByte r x v)).setResult .none) t at hr
    obtain ⟨hbyte, hbut⟩ := stored_of_sameStorage hinv v hstor
    refine ⟨hexec, t, hexec.trans ht, hbyte, hbut, ?_, ?_, fun h => ?_⟩
    · rw [hr.direction]; simp
    · rw [hr.enabledPins]; simp
    · obtain rfl : t = (transmitted p d w k (s.setByte r x v)).setResult .none := hq (setByte_quiet r x v h)
      refine ⟨by simpa using hbits, by simp [setByte_eq], ?_, ?_, ?_, ?_, ?_, rfl⟩
      · simpa [SamePortsBut] using transmitted_samePortsBut p d w k (s.setByte r x v)
      · simpa [SameTimers, setByte_eq] using transmitted_sameTimers p d w k (s.setByte r x v)
      · simpa [SameClock, setByte_eq] using transmitted_sameClock p d w k (s.setByte r x v)
      · simpa [SameQueues, setByte_eq] using transmitted_sameQueues p d w k (s.setByte r x v)
      · simpa [SameEnvironment, setByte_eq] using transmitted_sameEnvironment p d w k (s.setByte r x v)

end Sys2Proof.NamedRegisters

namespace Sys2Proof.TimerRegisters

/-! PROOFS. The timer's registers by name (`42_timer.md` R110 to R117, R122): where a 16-bit register's two bytes lie, what
an access to them by name is, and what a write leaves. -/

open Sys2Proof Sys2Proof.Machine Sys2Proof.RegionAccess Sys2Proof.NamedRegisters

/-! ### Accesses to a 16-bit register by name (R64, R70) -/

/-- A name with 16-bit accesses lies at an even address, and its second byte in the window of its first (P6, P7). -/
theorem namedAt_half {c : Cfg} (hc : c.WF) {n : RegName} (hw : (n.instr .read16).wf = true) {r : Region} {x : Nat}
    (hn : namedAt c n = (r, x)) : (regionBase c r + x) % 2 = 0 ∧ Claims c r (regionBase c r + x + 1) := by
  obtain ⟨⟨hbaseT, hbaseS, -⟩, ⟨-, hT, -, hS, -⟩, -⟩ := hc
  simp only [Cfg.spansT, List.forall_mem_cons, true_imp_iff] at hT
  simp only [Cfg.spansS, List.forall_mem_append, List.forall_mem_cons, true_imp_iff] at hS
  have hlt : (regionBase c r + x) % 2 = 0 ∧ x + 1 < regionSize r := by
    cases n <;> cases hn <;> cases hw <;> simp only [regionBase, regionSize] <;> omega
  exact ⟨hlt.1, by omega, by omega⟩

section

variable {s : State} (hc : s.cfg.WF) {n : RegName} (hw : (n.instr .read16).wf = true) {r : Region} {x : Nat}
  (hn : namedAt s.cfg n = (r, x))

include hc hw hn

theorem claims_lane (lo : Bool) : Claims s.cfg r (regionBase s.cfg r + (x + lo.toNat)) := by
  cases lo
  · exact namedAt_claims hc hn
  · exact (namedAt_half hc hw hn).2

theorem busMask_lane (lo : Bool) : busMask (laneAddress s.cfg n lo) = regionBase s.cfg r + (x + lo.toNat) := by
  have hlane : laneAddress s.cfg n lo = BitVec.ofNat 32 (regionBase s.cfg r + (x + lo.toNat)) := by
    rw [laneAddress, namedAddress, hn, ← BitVec.ofNat_add, Nat.add_assoc]
  rw [hlane, busMask_ofNat (claims_lt hc (claims_lane hc hw hn lo))]

theorem exec_lane_read (lo : Bool) :
    exec (n.instr (.read8 lo)) s = .next (s.setResult (.byte (laneRead r (x + lo.toNat) s))) := by
  have hbus : busRead8 (laneAddress s.cfg n lo) s = laneRead r (x + lo.toNat) s := by
    rw [busRead8, busMask_lane hc hw hn, route_of_claims hc (claims_lane hc hw hn lo)]
    simp [offsetIn]
  rw [exec_named, accessRegister, hbus]

theorem exec_lane_write (lo : Bool) (v : Byte) :
    exec (n.instr (.write8 lo v)) s = finish (regionWrite8 r (x + lo.toNat) v s) := by
  have hbus : busWrite8 (laneAddress s.cfg n lo) v s = regionWrite8 r (x + lo.toNat) v s := by
    rw [busWrite8, busMask_lane hc hw hn, route_of_claims hc (claims_lane hc hw hn lo)]
    simp [offsetIn]
  rw [exec_named, accessRegister, hbus]

theorem busMask_named : busMask (namedAddress s.cfg n) = regionBase s.cfg r + x := by
  simpa [laneAddress] using busMask_lane hc hw hn false

theorem exec_half_read : exec (n.instr .read16) s = .next (s.setResult (.half (regionRead16 r x s))) := by
  have hbus : busRead16 (namedAddress s.cfg n) s = .ok (regionRead16 r x s) := by
    rw [busRead16, busMask_named hc hw hn, route_of_claims hc (namedAt_claims hc hn)]
    simp [offsetIn, (namedAt_half hc hw hn).1]
  rw [exec_named, accessRegister, hbus]
  rfl

theorem exec_half_write (v : Half) : exec (n.instr (.write16 v)) s = finish (regionWrite16 r x v s) := by
  have hbus : busWrite16 (namedAddress s.cfg n) v s = regionWrite16 r x v s := by
    rw [busWrite16, busMask_named hc hw hn, route_of_claims hc (namedAt_claims hc hn)]
    simp [offsetIn, (namedAt_half hc hw hn).1]
  rw [exec_named, accessRegister, hbus]

end

/-! ### Where the timer's 16-bit registers stand (R22) -/

/-- Both bytes of the 16-bit register `g` stand at `x`. -/
def HalfAt (c : Cfg) (r : Region) (g : Reg) (x : Nat) : Prop := ∀ lo : Bool, regAt c r (x + lo.toNat) = some g

theorem HalfAt.hi {c : Cfg} {r : Region} {g : Reg} {x : Nat} (h : HalfAt c r g x) : regAt c r x = some g := h false

theorem HalfAt.lo {c : Cfg} {r : Region} {g : Reg} {x : Nat} (h : HalfAt c r g x) : regAt c r (x + 1) = some g := h true

theorem covers16_lane (x : Nat) (lo : Bool) : covers16 x (x + lo.toNat) = true := by
  cases lo <;> simp [covers16]

theorem lane_ne_of_apart {a b : Nat} (h : Cfg.apart (a, 1) (b, 2)) (lo : Bool) : b + lo.toNat ≠ a := by
  have := lo.toNat_le
  simp only [Cfg.apart] at h
  omega

theorem covers16_lane_of_apart {a b : Nat} (h : Cfg.apart (a, 2) (b, 2)) (lo : Bool) :
    covers16 a (b + lo.toNat) = false := by
  have := lo.toNat_le
  simp only [Cfg.apart] at h
  simp only [covers16, Bool.or_eq_false_iff, decide_eq_false_iff_not]
  omega

/-- P6: no register that comes before one of them in the region's decode overlaps it. -/
theorem timer_halfAt {c : Cfg} (hc : c.WF) :
    HalfAt c .timer .tcnt c.tTcnt ∧ (∀ k : Channel, HalfAt c .timer (.toc k) c.tToc[k]) ∧
      HalfAt c .timer .tmsk c.tTmsk ∧ HalfAt c .timer .tflg c.tTflg := by
  obtain ⟨-, ⟨hT, -⟩, -⟩ := hc
  simp only [Cfg.spansT, List.pairwise_cons, List.forall_mem_cons] at hT
  refine ⟨fun lo => ?_, fun k lo => ?_, fun lo => ?_, fun lo => ?_⟩
  case refine_2 =>
    fin_cases k <;> simp [regAt, regAtT, covers16_lane, lane_ne_of_apart, covers16_lane_of_apart, hT]
  all_goals simp [regAt, regAtT, covers16_lane, lane_ne_of_apart, covers16_lane_of_apart, hT]

/-- Two registers share no byte. -/
theorem HalfAt.apart {c : Cfg} {r : Region} {g g1 : Reg} {x x1 : Nat} (h : HalfAt c r g x) (h1 : HalfAt c r g1 x1)
    (hne : g ≠ g1) : x1 + 2 ≤ x ∨ x + 2 ≤ x1 := by
  have hlanes (lo lo1 : Bool) : x + lo.toNat ≠ x1 + lo1.toNat := fun he =>
    hne (Option.some.inj ((h lo).symm.trans (he ▸ h1 lo1)))
  have h00 := hlanes false false
  have h01 := hlanes false true
  have h10 := hlanes true false
  simp only [Bool.toNat_false, Bool.toNat_true] at h00 h01 h10
  omega

/-- The name `n` is that of the 16-bit register `g`, at offset `x` of region `r`. -/
structure NamesHalf (c : Cfg) (n : RegName) (r : Region) (g : Reg) (x : Nat) : Prop where
  wide : (n.instr .read16).wf = true
  place : namedAt c n = (r, x)
  stands : HalfAt c r g x

theorem namesHalf_tcnt {c : Cfg} (hc : c.WF) : NamesHalf c .tcnt .timer .tcnt c.tTcnt :=
  ⟨rfl, rfl, (timer_halfAt hc).1⟩

theorem namesHalf_toc {c : Cfg} (hc : c.WF) {n : RegName} {k : Channel} (hn : targetChannel n = some k) :
    NamesHalf c n .timer (.toc k) c.tToc[k] := by
  obtain ⟨-, htoc, -⟩ := timer_halfAt hc
  cases n <;> cases hn <;> exact ⟨rfl, rfl, htoc _⟩

theorem namesHalf_tflg {c : Cfg} (hc : c.WF) : NamesHalf c .tflg .timer .tflg c.tTflg :=
  ⟨rfl, rfl, (timer_halfAt hc).2.2.2⟩

/-! ### What a read by name answers (R83, R86) -/

section

variable {s : State} (hc : s.cfg.WF) {n : RegName} {r : Region} {g : Reg} {x : Nat} (h : NamesHalf s.cfg n r g x)
  (hcount : g ≠ .tcnt) (hdata : ∀ p, g ≠ .data p)

include h hcount hdata

theorem laneRead_half (lo : Bool) : laneRead r (x + lo.toNat) s = s.byteAt r (x + lo.toNat) :=
  laneRead_of_storage (by simpa [h.stands lo] using hcount) fun p => by simpa [h.stands lo] using hdata p

include hc

theorem exec_read8_half (lo : Bool) :
    exec (n.instr (.read8 lo)) s = .next (s.setResult (.byte (s.byteAt r (x + lo.toNat)))) := by
  rw [exec_lane_read hc h.wide h.place, laneRead_half h hcount hdata]

theorem exec_read16_half : exec (n.instr .read16) s = .next (s.setResult (.half (s.reg16 r x))) := by
  have hhi : laneRead r x s = s.byteAt r x := laneRead_half h hcount hdata false
  have hlo : laneRead r (x + 1) s = s.byteAt r (x + 1) := laneRead_half h hcount hdata true
  rw [exec_half_read hc h.wide h.place, regionRead16, hhi, hlo, State.reg16]

end

/-! ### What a write by name stores (R84, R85, R87) -/

/-- `u` is `s` with what the write access `acc` stores at the 16-bit register at `x`: both bytes, or one. -/
def Stores (acc : RegAccess) (r : Region) (x : Nat) (s u : State) : Prop :=
  (∃ v, acc = .write16 v ∧ u = s.setReg16 r x v) ∨ ∃ lo v, acc = .write8 lo v ∧ u = s.setByte r (x + lo.toNat) v

/-- A write by name stores; then the register's side effect runs, touched at one of its two bytes. -/
theorem exec_write_half {s u : State} (hc : s.cfg.WF) {n : RegName} {r : Region} {g : Reg} {x : Nat}
    (h : NamesHalf s.cfg n r g x) (hcount : g ≠ .tcnt) {acc : RegAccess} (hu : Stores acc r x s u) :
    ∃ o, exec (n.instr acc) s = finish (sideEffect r o (some g) u) := by
  have hne (lo : Bool) : regAt s.cfg r (x + lo.toNat) ≠ some .tcnt := by simpa [h.stands lo] using hcount
  obtain ⟨v, rfl, rfl⟩ | ⟨lo, v, rfl, rfl⟩ := hu
  · have hstored : storeByte r (x + 1) (loByte v) (storeByte r x (hiByte v) s) = s.setReg16 r x v := by
      rw [storeByte_of_ne_tcnt hc (o := x) (hne false), storeByte_of_ne_tcnt (by rwa [setByte_cfg])
        (by rw [setByte_cfg]; exact hne true), State.setReg16]
    exact ⟨x, by simp [exec_half_write hc h.wide h.place, regionWrite16, hstored, h.stands.hi, h.stands.lo]⟩
  · exact ⟨x + lo.toNat, by
      rw [exec_lane_write hc h.wide h.place, regionWrite8, storeByte_of_ne_tcnt hc (hne lo), h.stands lo]⟩

section

variable {access : RegAccess} {r : Region} {x : Nat} {s u : State} (h : Stores access r x s u)

include h

/-- A store touches one region's storage and nothing else. -/
theorem Stores.frame : ∃ m, u = s.setStor r m := by
  obtain ⟨v, -, rfl⟩ | ⟨lo, v, -, rfl⟩ := h
  · exact ⟨(s.setReg16 r x v).stor r, by cases r <;> rfl⟩
  · exact ⟨_, rfl⟩

theorem Stores.cfg : u.cfg = s.cfg := by
  obtain ⟨m, rfl⟩ := h.frame
  simp

theorem Stores.acc : u.acc = s.acc := by
  obtain ⟨m, rfl⟩ := h.frame
  simp

theorem Stores.sameStorageBut (hs : s.sorted r) : SameStorageBut r x 2 s u := by
  intro r1 o hout
  obtain ⟨v, -, rfl⟩ | ⟨lo, v, -, rfl⟩ := h
  · simpa using sameStorageBut_setReg16 hs x .none v r1 o hout
  · have hlo := lo.toNat_le
    simpa using sameStorageBut_setByte hs (x + lo.toNat) .none v r1 o fun ⟨hr, h1, h2⟩ => hout ⟨hr, by omega, by omega⟩

end

/-- What is stored outside a 16-bit register leaves it as it was. -/
theorem reg16_of_sameStorageBut {s t : State} {r : Region} {x y : Nat} (h : SameStorageBut r x 2 s t)
    (hy : y + 2 ≤ x ∨ x + 2 ≤ y) : t.reg16 r y = s.reg16 r y := by
  rw [State.reg16, State.reg16, h r y (by omega), h r (y + 1) (by omega)]

/-! ### The counter (R110, R111) -/

theorem storeByte_tcnt (s : State) (lo : Bool) (b : Byte) : storeByte .timer (s.cfg.tTcnt + lo.toNat) b s = s :=
  if_pos ⟨rfl, covers16_lane _ lo⟩

theorem regionWrite8_tcnt {s : State} (hc : s.cfg.WF) (lo : Bool) (v : Byte) :
    regionWrite8 .timer (s.cfg.tTcnt + lo.toNat) v s = .ok s := by
  rw [regionWrite8, storeByte_tcnt, (timer_halfAt hc).1 lo, sideEffect]

theorem regionWrite16_tcnt {s : State} (hc : s.cfg.WF) (v : Half) : regionWrite16 .timer s.cfg.tTcnt v s = .ok s := by
  obtain ⟨hat, -⟩ := timer_halfAt hc
  have hhi : storeByte .timer s.cfg.tTcnt (hiByte v) s = s := storeByte_tcnt s false _
  have hlo : storeByte .timer (s.cfg.tTcnt + 1) (loByte v) s = s := storeByte_tcnt s true _
  simp [regionWrite16, hhi, hlo, hat.hi, hat.lo, sideEffect]

theorem tcntValue_eq (s : State) : tcntValue s = BitVec.ofNat 16 (s.cycles.toNat / 4) := by
  apply BitVec.eq_of_toNat_eq
  simp [tcntValue, Nat.shiftRight_eq_div_pow]

/-- Settles O39: each lane of a read is a byte of the counter's value, and a write to either lane stores nothing. -/
theorem counterRegister : Obligations.CounterRegister := by
  intro s hc
  have h := namesHalf_tcnt hc
  have hhi : laneRead .timer s.cfg.tTcnt s = hiByte (tcntValue s) := by
    rw [laneRead_of_tcnt h.stands.hi, if_pos rfl]
  have hlo : laneRead .timer (s.cfg.tTcnt + 1) s = loByte (tcntValue s) := by
    rw [laneRead_of_tcnt h.stands.lo, if_neg (by omega)]
  refine ⟨?_, ?_, ?_, fun v => ?_, fun lo v => ?_⟩
  · rw [← tcntValue_eq, ← joinBytes_bytes (tcntValue s), ← hhi, ← hlo]
    exact exec_half_read hc h.wide h.place
  · rw [← hiByte_tcntValue, ← hhi]
    exact exec_lane_read hc h.wide h.place false
  · rw [← loByte_tcntValue, ← hlo]
    exact exec_lane_read hc h.wide h.place true
  · exact (exec_half_write hc h.wide h.place v).trans (by rw [regionWrite16_tcnt hc, finish_ok])
  · exact (exec_lane_write hc h.wide h.place lo v).trans (by rw [regionWrite8_tcnt hc, finish_ok])

/-! ### The target registers (R113 to R115) -/

theorem targetCycles_eq (v : Half) : targetCycles v = 4 * v.toNat := by
  simp [targetCycles, Nat.shiftLeft_eq, Int.mul_comm]

section

variable {s t : State} (hc : s.cfg.WF) (hcfg : t.cfg = s.cfg)

include hc hcfg

/-- A store in one target register leaves the other channels' targets. -/
theorem target_of_sameStorageBut_toc {j k : Channel} (h : SameStorageBut .timer s.cfg.tToc[k] 2 s t) (hj : j ≠ k) :
    t.target j = s.target j := by
  obtain ⟨-, htoc, -⟩ := timer_halfAt hc
  rw [State.target, State.target, hcfg,
    reg16_of_sameStorageBut h ((htoc k).apart (htoc j) fun he => hj (Reg.toc.inj he).symm)]

theorem flag_of_sameStorageBut_toc {k : Channel} (h : SameStorageBut .timer s.cfg.tToc[k] 2 s t) (j : Channel) :
    t.flag j = s.flag j := by
  obtain ⟨-, htoc, -, hflag⟩ := timer_halfAt hc
  rw [State.flag, State.flag, hcfg, reg16_of_sameStorageBut h ((htoc k).apart hflag nofun)]

theorem target_of_sameStorageBut_tflg (h : SameStorageBut .timer s.cfg.tTflg 2 s t) (j : Channel) :
    t.target j = s.target j := by
  obtain ⟨-, htoc, -, hflag⟩ := timer_halfAt hc
  rw [State.target, State.target, hcfg, reg16_of_sameStorageBut h (hflag.apart (htoc j) nofun)]

theorem mask_of_sameStorageBut_tflg (h : SameStorageBut .timer s.cfg.tTflg 2 s t) (j : Channel) :
    t.mask j = s.mask j := by
  obtain ⟨-, -, hmask, hflag⟩ := timer_halfAt hc
  rw [State.mask, State.mask, hcfg, reg16_of_sameStorageBut h (hflag.apart hmask nofun)]

end

/-- Settles O40: a write is a store and then the resynchronisation of the one channel, which no storage sees. -/
theorem targetRegisters : Obligations.TargetRegisters := by
  rintro n k s x hn hinv rfl
  have h := namesHalf_toc hinv.config hn
  have hsorted : s.sorted .timer := (hinv.storage .timer).1
  refine ⟨exec_read8_half hinv.config h nofun nofun, exec_read16_half hinv.config h nofun nofun, ?_⟩
  rintro hvar acc u t (hu : Stores acc .timer _ s u) ht
  obtain ⟨o, hexec⟩ := exec_write_half hinv.config h nofun hu
  have hside : sideEffect .timer o (some (.toc k)) u = .ok (resync k u) := by rw [sideEffect, hu.cfg, hvar]
  have hbut := hu.sameStorageBut hsorted
  obtain ⟨hlow, hhigh, hmod⟩ := resyncValue_bounds (u.target k) s.acc[k]
  have hacc (j : Channel) : t.acc[j] = if j = k then resyncValue (u.target k) s.acc[k] else s.acc[j] := by
    rw [ht, setResult_acc, setAcc_getElem, hu.acc]
  have htarget (j : Channel) : t.target j = u.target j := by rw [ht]; simp [State.target]
  have hflag (j : Channel) : t.flag j = u.flag j := by rw [ht]; simp [State.flag]
  rw [htarget, hacc, if_pos rfl]
  refine ⟨?_, fun r1 o1 hout => ?_, ?_, hlow, hhigh, hmod, fun j hj => ⟨?_, ?_⟩, fun j => ?_⟩
  · rw [hexec, hside, finish_ok, resync, hu.acc, ht]
  · rw [ht, setResult_byteAt, setAcc_byteAt, hbut r1 o1 hout]
  · rintro v rfl
    obtain ⟨w, hw, rfl⟩ | ⟨lo, w, hw, -⟩ := hu
    · cases hw
      rw [State.target, setReg16_cfg, setReg16_reg16 hsorted, targetCycles_eq]
    · cases hw
  · rw [hacc, if_neg hj]
  · rw [htarget, target_of_sameStorageBut_toc hinv.config hu.cfg hbut hj]
  · rw [hflag, flag_of_sameStorageBut_toc hinv.config hu.cfg hbut]

/-! ### The flag register (R116) -/

theorem resyncAll_frame (s : State) : ∃ a, resyncAll s = { s with acc := a } := ⟨_, rfl⟩

@[simp] theorem resyncAll_byteAt (s : State) (r : Region) (o : Nat) : (resyncAll s).byteAt r o = s.byteAt r o := by
  simp [resyncAll, resync]

@[simp] theorem resyncAll_reg16 (s : State) (r : Region) (o : Nat) : (resyncAll s).reg16 r o = s.reg16 r o := by
  simp [State.reg16]

@[simp] theorem resyncAll_cfg (s : State) : (resyncAll s).cfg = s.cfg := rfl

/-- Settles O42: a write is a store, which leaves every target, and then the resynchronisation of all four channels. -/
theorem flagRegister : Obligations.FlagRegister := by
  rintro s x hinv rfl
  have h := namesHalf_tflg hinv.config
  have hsorted : s.sorted .timer := (hinv.storage .timer).1
  refine ⟨exec_read16_half hinv.config h nofun nofun, exec_read8_half hinv.config h nofun nofun, ?_⟩
  intro hvar acc u (hu : Stores acc .timer _ s u)
  obtain ⟨o, hexec⟩ := exec_write_half hinv.config h nofun hu
  have hside : sideEffect .timer o (some .tflg) u = .ok (resyncAll u) := by rw [sideEffect, hu.cfg, hvar]
  have hbut := hu.sameStorageBut hsorted
  obtain ⟨a, hframe⟩ := resyncAll_frame u
  refine ⟨(resyncAll u).setResult .none, ?_, by rw [hframe]; rfl, fun r1 o1 hout => ?_, ?_, fun k => ?_⟩
  · exact hexec.trans (by rw [hside, finish_ok])
  · rw [setResult_byteAt, resyncAll_byteAt, hbut r1 o1 hout]
  · rintro v rfl k
    obtain ⟨w, hw, rfl⟩ | ⟨lo, w, hw, -⟩ := hu
    · cases hw
      simp [State.flag, setReg16_reg16 hsorted]
    · cases hw
  · rw [setResult_acc, resyncAll_acc, target_of_sameStorageBut_tflg hinv.config hu.cfg hbut, hu.acc]

/-! ### The legacy variant (R122) -/

/-- In the legacy variant the target and flag registers are storage with no side effect. -/
theorem exec_write_legacy {s u : State} (hc : s.cfg.WF) (hvar : s.cfg.variant = .legacy) {n : RegName}
    (hn : targetChannel n ≠ none ∨ n = .tflg) {x : Nat} (hx : namedAt s.cfg n = (.timer, x)) {acc : RegAccess}
    (hu : Stores acc .timer x s u) : exec (n.instr acc) s = .next (u.setResult .none) := by
  have hreg : ∃ g, NamesHalf s.cfg n .timer g x ∧ g ≠ .tcnt ∧ ∀ o, sideEffect .timer o (some g) u = .ok u := by
    have hplace {g : Reg} {y : Nat} (h : NamesHalf s.cfg n .timer g y) : NamesHalf s.cfg n .timer g x := by
      obtain rfl : y = x := congrArg Prod.snd (h.place.symm.trans hx)
      exact h
    obtain hn | rfl := hn
    · obtain ⟨k, hk⟩ := Option.ne_none_iff_exists'.mp hn
      exact ⟨.toc k, hplace (namesHalf_toc hc hk), nofun, fun o => by rw [sideEffect, hu.cfg, hvar]⟩
    · exact ⟨.tflg, hplace (namesHalf_tflg hc), nofun, fun o => by rw [sideEffect, hu.cfg, hvar]⟩
  obtain ⟨g, h, hcount, hside⟩ := hreg
  obtain ⟨o, hexec⟩ := exec_write_half hc h hcount hu
  rw [hexec, hside, finish_ok]

end Sys2Proof.TimerRegisters

namespace Sys2Proof.TimerExec

/-! PROOFS. The timer's exec step (`42_timer.md` R118 to R120, R122, R123): with no listener it is a change of accumulators
and flags, channel by channel, and a run of vectors put at the back of one queue. -/

open Sys2Proof Sys2Proof.Machine Sys2Proof.RegionAccess Sys2Proof.TimerRegisters

/-! ### A run of vectors raised with no listener (R150, R153) -/

/-- The request level depends on which queues are empty only. -/
theorem highest_set_congr {a b : List Byte} (h : a = [] ↔ b = []) (q : Vector (List Byte) 8) (l : Level) :
    highest (q.set l a) = highest (q.set l b) := by
  fin_cases l <;> simp [highest, h]

/-- The vectors `vs` at the back of the queue of level `lvl`, and an event for each. -/
def enqueued (lvl : Level) (vs : List Byte) (s : State) : State :=
  { s with
    queue := s.queue.set lvl (s.queue[lvl] ++ vs)
    irq := if vs = [] then s.irq else highest (s.queue.set lvl (s.queue[lvl] ++ vs))
    out := s.out ++ vs.map fun _ => .irqLine (highest (s.queue.set lvl (s.queue[lvl] ++ vs))) }

section

variable (lvl : Level) (vs : List Byte) (s : State)

@[simp] theorem enqueued_getElem (l : Level) :
    (enqueued lvl vs s).queue[l] = if l = lvl then s.queue[lvl] ++ vs else s.queue[l] :=
  setQueue_getElem s lvl l (s.queue[lvl] ++ vs)

@[simp] theorem enqueued_nil : enqueued lvl [] s = s := by simp [enqueued]

theorem enqueued_irq (h : s.irq = highest s.queue ∨ vs ≠ []) :
    (enqueued lvl vs s).irq = highest (enqueued lvl vs s).queue := by
  by_cases hvs : vs = []
  · subst hvs
    simpa using h
  · exact if_neg hvs

theorem enqueued_out (h : s.irq = highest s.queue ∨ vs ≠ []) :
    (enqueued lvl vs s).out = s.out ++ vs.map fun _ => .irqLine (enqueued lvl vs s).irq := by
  rw [enqueued_irq lvl vs s h]
  rfl

/-- Two runs one after the other are one run: the second does not change the level requested. -/
theorem enqueued_enqueued (ws : List Byte) :
    enqueued lvl ws (enqueued lvl vs s) = enqueued lvl (vs ++ ws) s := by
  by_cases hvs : vs = []
  · simp [hvs]
  by_cases hws : ws = []
  · simp [hws]
  have hlevel : highest (s.queue.set lvl (s.queue[lvl] ++ vs)) = highest (s.queue.set lvl (s.queue[lvl] ++ (vs ++ ws))) :=
    highest_set_congr (by simp [hvs]) _ _
  simp only [Fin.getElem_fin] at hlevel
  simp [enqueued, hvs, hws, hlevel]

end

theorem injectVector_enqueued {s : State} (hq : s.quiet) (vec : Byte) (lvl : Level) :
    injectVector vec lvl s = .ok (enqueued lvl [vec] s) := by
  rw [injectVector_quiet hq]
  rfl

theorem raiseOnce_enqueued {s : State} (hq : s.quiet) (vec : Byte) (lvl : Level) :
    raiseOnce vec lvl s = .ok (enqueued lvl (if vec ∈ s.queue[lvl] then [] else [vec]) s) := by
  by_cases h : vec ∈ s.queue[lvl]
  · simp only [raiseOnce, hasPending, h, decide_true, if_true, enqueued_nil]
  · simp only [raiseOnce, hasPending, h, decide_false, if_false, Bool.false_eq_true, injectVector_enqueued hq]

/-! ### The channels' bits and vectors (R14, R120) -/

theorem ocBit_lt {c : Cfg} (hc : c.WF) (k : Channel) : c.ocBit[k] < 16 := by
  obtain ⟨-, -, ⟨-, -, -, -, -, -, -, -, -, h0, h1, h2, h3, -⟩, -⟩ := hc
  fin_cases k
  exacts [h0, h1, h2, h3]

theorem ocBit_inj {c : Cfg} (hc : c.WF) {j k : Channel} : c.ocBit[j] = c.ocBit[k] ↔ j = k := by
  obtain ⟨-, -, ⟨-, -, -, -, -, -, -, -, -, -, -, -, -, hne⟩, -⟩ := hc
  have hlist (k : Channel) : [c.ocBit[0], c.ocBit[1], c.ocBit[2], c.ocBit[3]][k.val]'k.isLt = c.ocBit[k] := by
    fin_cases k <;> rfl
  rw [← hlist, ← hlist, List.Nodup.getElem_inj_iff hne, Fin.val_inj]

/-- The vector of channel `k` (R120). -/
def timerVector (c : Cfg) (k : Channel) : Byte := c.tVecBase + BitVec.ofNat 8 k.val

theorem timerVector_inj {c : Cfg} {j k : Channel} : timerVector c j = timerVector c k ↔ j = k := by
  refine ⟨fun h => Fin.ext ?_, fun h => h ▸ rfl⟩
  have hval := congrArg BitVec.toNat (add_left_cancel h)
  simp only [BitVec.toNat_ofNat] at hval
  omega

/-! ### Setting a flag (R118) -/

theorem stores_setFlag (s : State) (k : Channel) : ∃ v, Stores (.write16 v) .timer s.cfg.tTflg s (s.setFlag k) :=
  ⟨_, .inl ⟨_, rfl, rfl⟩⟩

theorem setFlag_frame (s : State) (k : Channel) : ∃ m, s.setFlag k = { s with storT := m } := by
  obtain ⟨v, h⟩ := stores_setFlag s k
  exact h.frame

@[simp] theorem setFlag_cfg (s : State) (k : Channel) : (s.setFlag k).cfg = s.cfg := setReg16_cfg ..

section

variable {s : State} (hs : s.sorted .timer) (k : Channel)

include hs

theorem setFlag_sorted : (s.setFlag k).sorted .timer := setByte_sorted (setByte_sorted hs ..) ..

theorem setFlag_sameStorageBut : SameStorageBut .timer s.cfg.tTflg 2 s (s.setFlag k) := by
  obtain ⟨v, h⟩ := stores_setFlag s k
  exact h.sameStorageBut hs

theorem setFlag_getLsbD (hc : s.cfg.WF) (b : Nat) : ((s.setFlag k).reg16 .timer s.cfg.tTflg).getLsbD b =
    ((s.reg16 .timer s.cfg.tTflg).getLsbD b || decide (s.cfg.ocBit[k] = b)) := by
  rw [State.setFlag, setReg16_reg16 hs, BitVec.getLsbD_or, BitVec.getLsbD_twoPow]
  simp only [ocBit_lt hc, decide_true, Bool.true_and]

theorem setFlag_mask (hc : s.cfg.WF) (j : Channel) : (s.setFlag k).mask j = s.mask j :=
  mask_of_sameStorageBut_tflg hc (setFlag_cfg s k) (setFlag_sameStorageBut hs k) j

end

/-! ### One channel's part of the exec step, but for its vector (R118) -/

theorem setAcc_due (s : State) (k : Channel) (a : Int) :
    (s.setAcc k a).due k = (!s.flag k && decide (s.target k ≤ a)) := by
  rw [State.due, setAcc_flag, setAcc_target, setAcc_getElem, if_pos rfl]

/-- Channel `k` after `d` cycles: its accumulator has advanced, and its flag is set if it is due then. -/
def advance (d : Nat) (k : Channel) (s : State) : State :=
  if (s.setAcc k (s.acc[k] + d)).due k then (s.setAcc k (s.acc[k] + d)).setFlag k else s.setAcc k (s.acc[k] + d)

/-- The channels of a list, in order. -/
def advanceAll (d : Nat) : List Channel → State → State
  | [], s => s
  | k :: ks, s => advanceAll d ks (advance d k s)

theorem advance_frame (d : Nat) (k : Channel) (s : State) :
    ∃ m, advance d k s = { s.setAcc k (s.acc[k] + d) with storT := m } := by
  unfold advance
  split
  · exact setFlag_frame _ k
  · exact ⟨s.storT, rfl⟩

@[simp] theorem advance_queue (d : Nat) (k : Channel) (s : State) : (advance d k s).queue = s.queue := by
  obtain ⟨m, h⟩ := advance_frame d k s
  rw [h, setAcc_queue]

@[simp] theorem advance_cfg (d : Nat) (k : Channel) (s : State) : (advance d k s).cfg = s.cfg := by
  obtain ⟨m, h⟩ := advance_frame d k s
  rw [h, setAcc_cfg]

theorem advance_acc (d : Nat) (k j : Channel) (s : State) :
    (advance d k s).acc[j] = if j = k then s.acc[k] + d else s.acc[j] := by
  obtain ⟨m, h⟩ := advance_frame d k s
  rw [h]
  exact setAcc_getElem s k j _

theorem advance_quiet {s : State} (hq : s.quiet) (d : Nat) (k : Channel) : (advance d k s).quiet := by
  obtain ⟨m, h⟩ := advance_frame d k s
  rw [h]
  exact hq

section

variable {s : State} (hs : s.sorted .timer) (d : Nat) (k : Channel)

include hs

theorem advance_sorted : (advance d k s).sorted .timer := by
  unfold advance
  split
  · exact setFlag_sorted hs k
  · exact hs

theorem advance_sameStorageBut : SameStorageBut .timer s.cfg.tTflg 2 s (advance d k s) := by
  intro r o hout
  unfold advance
  split
  · rw [setFlag_sameStorageBut (s := s.setAcc k _) hs k r o hout, setAcc_byteAt]
  · rw [setAcc_byteAt]

/-- Bit `b` of the flag register: the channel's own bit is set if its target is reached. -/
theorem advance_getLsbD (hc : s.cfg.WF) (b : Nat) : ((advance d k s).reg16 .timer s.cfg.tTflg).getLsbD b =
    ((s.reg16 .timer s.cfg.tTflg).getLsbD b ||
      (decide (s.cfg.ocBit[k] = b) && decide (s.target k ≤ s.acc[k] + d))) := by
  have hflag : s.flag k = (s.reg16 .timer s.cfg.tTflg).getLsbD s.cfg.ocBit[k] := rfl
  unfold advance
  rw [setAcc_due]
  by_cases hreach : s.target k ≤ s.acc[k] + d
  · cases hk : s.flag k
    · simp only [hreach, decide_true, Bool.not_false, Bool.and_true, if_true]
      exact setFlag_getLsbD (s := s.setAcc k _) hs k hc b
    · simp only [hreach, decide_true, Bool.not_true, Bool.false_eq_true, if_false, Bool.and_true,
        setAcc_reg16]
      by_cases hb : s.cfg.ocBit[k] = b
      · simp only [← hb, ← hflag, hk, Bool.true_or]
      · simp only [hb, decide_false, Bool.or_false]
  · simp only [hreach, decide_false, Bool.and_false, Bool.false_eq_true, if_false, setAcc_reg16, Bool.or_false]

theorem advance_flag (hc : s.cfg.WF) (j : Channel) : (advance d k s).flag j =
    (s.flag j || (decide (j = k) && decide (s.target k ≤ s.acc[k] + d))) := by
  rw [State.flag, advance_cfg, advance_getLsbD hs d k hc]
  simp only [ocBit_inj hc, eq_comm (a := k)]
  rfl

theorem advance_target (hc : s.cfg.WF) (j : Channel) : (advance d k s).target j = s.target j :=
  target_of_sameStorageBut_tflg hc (advance_cfg d k s) (advance_sameStorageBut hs d k) j

theorem advance_mask (hc : s.cfg.WF) (j : Channel) : (advance d k s).mask j = s.mask j :=
  mask_of_sameStorageBut_tflg hc (advance_cfg d k s) (advance_sameStorageBut hs d k) j

end

theorem advance_enqueued (d : Nat) (k : Channel) (lvl : Level) (vs : List Byte) (s : State) :
    advance d k (enqueued lvl vs s) = enqueued lvl vs (advance d k s) := by
  have hdue : ((enqueued lvl vs s).setAcc k ((enqueued lvl vs s).acc[k] + d)).due k =
      (s.setAcc k (s.acc[k] + d)).due k := rfl
  unfold advance
  rw [hdue]
  split <;> rfl

/-! ### The channels in order -/

theorem advanceAll_enqueued (d : Nat) (ks : List Channel) (lvl : Level) (vs : List Byte) (s : State) :
    advanceAll d ks (enqueued lvl vs s) = enqueued lvl vs (advanceAll d ks s) := by
  induction ks generalizing s with
  | nil => rfl
  | cons k ks ih => rw [advanceAll, advance_enqueued, ih, advanceAll]

theorem advanceAll_frame (d : Nat) (ks : List Channel) (s : State) :
    ∃ m a, advanceAll d ks s = { s with storT := m, acc := a } := by
  induction ks generalizing s with
  | nil => exact ⟨s.storT, s.acc, rfl⟩
  | cons k ks ih =>
    obtain ⟨m, hk⟩ := advance_frame d k s
    obtain ⟨m1, a, hks⟩ := ih (advance d k s)
    exact ⟨m1, a, by rw [advanceAll, hks, hk]; rfl⟩

/-- A channel that comes once in the list advances once; the others stay. -/
theorem advanceAll_acc {ks : List Channel} (hks : ks.Nodup) (d : Nat) (s : State) (j : Channel) :
    (advanceAll d ks s).acc[j] = if j ∈ ks then s.acc[j] + d else s.acc[j] := by
  induction ks generalizing s with
  | nil => simp [advanceAll]
  | cons k ks ih =>
    obtain ⟨hk, hks⟩ := List.nodup_cons.mp hks
    rw [advanceAll, ih hks, advance_acc]
    by_cases hj : j = k
    · subst hj
      simp [hk]
    · simp [hj]

section

variable {s : State} (hs : s.sorted .timer) (d : Nat)

include hs

theorem advanceAll_sameStorageBut (ks : List Channel) : SameStorageBut .timer s.cfg.tTflg 2 s (advanceAll d ks s) := by
  induction ks generalizing s with
  | nil => exact fun _ _ _ => rfl
  | cons k ks ih =>
    intro r o hout
    have hrest := ih (advance_sorted hs d k)
    rw [advance_cfg] at hrest
    exact (hrest r o hout).trans (advance_sameStorageBut hs d k r o hout)

/-- A bit of the flag register that is no channel's stays. -/
theorem advanceAll_getLsbD (hc : s.cfg.WF) (ks : List Channel) {b : Nat} (hb : ∀ k : Channel, b ≠ s.cfg.ocBit[k]) :
    ((advanceAll d ks s).reg16 .timer s.cfg.tTflg).getLsbD b = (s.reg16 .timer s.cfg.tTflg).getLsbD b := by
  induction ks generalizing s with
  | nil => rfl
  | cons k ks ih =>
    have hrest := ih (advance_sorted hs d k) (by rwa [advance_cfg]) (by rwa [advance_cfg])
    rw [advance_cfg] at hrest
    rw [advanceAll, hrest, advance_getLsbD hs d k hc]
    simp only [(hb k).symm, decide_false, Bool.false_and, Bool.or_false]

theorem advanceAll_flag (hc : s.cfg.WF) {ks : List Channel} (hks : ks.Nodup) (j : Channel) :
    (advanceAll d ks s).flag j = (s.flag j || (decide (j ∈ ks) && decide (s.target j ≤ s.acc[j] + d))) := by
  induction ks generalizing s with
  | nil => simp [advanceAll]
  | cons k ks ih =>
    obtain ⟨hk, hks⟩ := List.nodup_cons.mp hks
    rw [advanceAll, ih (advance_sorted hs d k) (by rwa [advance_cfg]) hks, advance_flag hs d k hc,
      advance_target hs d k hc, advance_acc]
    by_cases hj : j = k
    · subst hj
      simp [hk]
    · simp [hj]

end

/-! ### The vectors the channels raise (R118, R120) -/

/-- Channel `k` raises its vector: flag 0, target reached, mask bit 1, vector not pending. -/
def raises (d : Nat) (s : State) (k : Channel) : Bool :=
  !s.flag k && decide (s.target k ≤ s.acc[k] + d) && s.mask k && decide (timerVector s.cfg k ∉ s.queue[s.cfg.tLevel])

/-- The vectors that the channels of a list raise. -/
def raisedBy (d : Nat) (ks : List Channel) (s : State) : List Byte := (ks.filter (raises d s)).map (timerVector s.cfg)

theorem raisedVectors_eq (s : State) (d : Nat) : raisedVectors s d = raisedBy d (activeChannels s.cfg.activeOc) s := rfl

theorem raisedBy_cons (d : Nat) (k : Channel) (ks : List Channel) (s : State) :
    raisedBy d (k :: ks) s = raisedBy d [k] s ++ raisedBy d ks s := by
  rw [raisedBy, ← List.singleton_append, List.filter_append, List.map_append, raisedBy, raisedBy]

theorem mem_raisedBy_singleton {d : Nat} {j k : Channel} {s : State} (h : timerVector s.cfg j ∈ raisedBy d [k] s) :
    j = k := by
  obtain ⟨i, hi, hvec⟩ := List.mem_map.mp h
  obtain rfl := List.mem_singleton.mp (List.mem_of_mem_filter hi)
  exact (timerVector_inj.mp hvec).symm

/-- What one channel does decides nothing about another's vector. -/
theorem raises_advance {s : State} (hc : s.cfg.WF) (hs : s.sorted .timer) (d : Nat) {j k : Channel} (hj : j ≠ k) :
    raises d (enqueued s.cfg.tLevel (raisedBy d [k] s) (advance d k s)) j = raises d s j := by
  have hpending : timerVector s.cfg j ∈ s.queue[s.cfg.tLevel] ++ raisedBy d [k] s ↔
      timerVector s.cfg j ∈ s.queue[s.cfg.tLevel] :=
    List.mem_append.trans (or_iff_left fun h => hj (mem_raisedBy_singleton h))
  have hflag : (advance d k s).flag j = s.flag j := by
    simp only [advance_flag hs d k hc, hj, decide_false, Bool.false_and, Bool.or_false]
  have hacc : (advance d k s).acc[j] = s.acc[j] := by rw [advance_acc, if_neg hj]
  have hfields (t : State) (lvl : Level) (vs : List Byte) : raises d (enqueued lvl vs t) j =
      (!t.flag j && decide (t.target j ≤ t.acc[j] + d) && t.mask j &&
        decide (timerVector t.cfg j ∉ (enqueued lvl vs t).queue[t.cfg.tLevel])) := rfl
  rw [hfields, hflag, hacc, advance_target hs d k hc, advance_mask hs d k hc, raises]
  simp only [advance_cfg, advance_queue, enqueued_getElem, if_true, hpending]

theorem raisedBy_advance {s : State} (hc : s.cfg.WF) (hs : s.sorted .timer) (d : Nat) {k : Channel} {ks : List Channel}
    (hk : k ∉ ks) : raisedBy d ks (enqueued s.cfg.tLevel (raisedBy d [k] s) (advance d k s)) = raisedBy d ks s := by
  have hfilter : ks.filter (raises d (enqueued s.cfg.tLevel (raisedBy d [k] s) (advance d k s))) =
      ks.filter (raises d s) :=
    List.filter_congr fun j hj => raises_advance hc hs d fun he => hk (he ▸ hj)
  rw [raisedBy, hfilter, show (enqueued s.cfg.tLevel (raisedBy d [k] s) (advance d k s)).cfg = s.cfg from
    advance_cfg d k s, raisedBy]

/-! ### The exec step (R118, R119, R123) -/

theorem raiseTimer_setFlag_quiet {s : State} (hq : s.quiet) (k : Channel) : raiseTimer k (s.setFlag k) =
    .ok (enqueued s.cfg.tLevel (if timerVector s.cfg k ∈ s.queue[s.cfg.tLevel] then [] else [timerVector s.cfg k])
      (s.setFlag k)) := by
  obtain ⟨m, hm⟩ := setFlag_frame s k
  rw [hm]
  exact raiseOnce_enqueued (s := { s with storT := m }) hq _ _

/-- Finishing with no listener: the flag, and the vector if the mask bit is 1 and it is not pending. -/
theorem finishChannel_quiet {s : State} (hq : s.quiet) (k : Channel) : finishChannel k s =
    .ok (enqueued s.cfg.tLevel
      (if s.due k = true ∧ (s.setFlag k).mask k = true ∧ timerVector s.cfg k ∉ s.queue[s.cfg.tLevel]
        then [timerVector s.cfg k] else [])
      (if s.due k then s.setFlag k else s)) := by
  rw [finishChannel]
  by_cases hdue : s.due k = true
  · by_cases hmask : (s.setFlag k).mask k = true
    · simp only [hdue, hmask, if_true, true_and, raiseTimer_setFlag_quiet hq, ite_not]
    · simp only [hdue, hmask, if_true, true_and, false_and, if_false, Bool.false_eq_true, enqueued_nil]
  · simp only [hdue, false_and, if_false, Bool.false_eq_true, enqueued_nil]

/-- One channel's whole part with no listener: it advances, and perhaps raises its vector. -/
theorem execChannel_quiet {d : Nat} {k : Channel} {s : State} (hq : s.quiet) (hle : s.acc[k] + d ≤ i32Max) :
    ∃ vs, execChannel d k s = .ok (enqueued s.cfg.tLevel vs (advance d k s)) ∧
      (s.cfg.WF → s.sorted .timer → vs = raisedBy d [k] s) := by
  have hexec : execChannel d k s = finishChannel k (s.setAcc k (s.acc[k] + d)) := if_neg (by omega)
  refine ⟨_, hexec.trans (finishChannel_quiet (s := s.setAcc k _) hq k), fun hc hs => ?_⟩
  have hmask : ((s.setAcc k (s.acc[k] + d)).setFlag k).mask k = s.mask k :=
    (setFlag_mask (s := s.setAcc k _) hs k hc k).trans (setAcc_mask ..)
  have hraises : raises d s k = true ↔ (s.setAcc k (s.acc[k] + d)).due k = true ∧
      ((s.setAcc k (s.acc[k] + d)).setFlag k).mask k = true ∧
      timerVector s.cfg k ∉ s.queue[s.cfg.tLevel] := by
    rw [raises, ← setAcc_due, hmask, Bool.and_eq_true, Bool.and_eq_true, decide_eq_true_iff, and_assoc]
  rw [raisedBy, List.filter_singleton]
  by_cases h : raises d s k = true
  · refine (if_pos (hraises.mp h)).trans ?_
    rw [h]
    rfl
  · refine (if_neg (mt hraises.mpr h)).trans ?_
    rw [Bool.eq_false_iff.mpr h]
    rfl

/-- The exec step with no listener: the channels advance, and their vectors are raised in order. -/
theorem execChannels_quiet {d : Nat} {ks : List Channel} (hks : ks.Nodup) {s : State} (hc : s.cfg.WF)
    (hs : s.sorted .timer) (hq : s.quiet) (hle : ∀ k ∈ ks, s.acc[k] + d ≤ i32Max) :
    execChannels d ks s = .ok (enqueued s.cfg.tLevel (raisedBy d ks s) (advanceAll d ks s)) := by
  induction ks generalizing s with
  | nil => rw [execChannels, raisedBy, List.filter_nil, List.map_nil, enqueued_nil, advanceAll]
  | cons k ks ih =>
    obtain ⟨hk, hks⟩ := List.nodup_cons.mp hks
    obtain ⟨hlek, hle⟩ := List.forall_mem_cons.mp hle
    obtain ⟨vs, hexec, hvs⟩ := execChannel_quiet hq hlek
    obtain rfl := hvs hc hs
    have hrest (j : Channel) (hj : j ∈ ks) :
        (enqueued s.cfg.tLevel (raisedBy d [k] s) (advance d k s)).acc[j] + d ≤ i32Max := by
      have hacc := advance_acc d k j s
      rw [if_neg fun he : j = k => hk (he ▸ hj)] at hacc
      exact (congrArg (· + (d : Int)) hacc).trans_le (hle j hj)
    have hcfg : (enqueued s.cfg.tLevel (raisedBy d [k] s) (advance d k s)).cfg = s.cfg := advance_cfg d k s
    rw [execChannels, hexec]
    refine (ih hks (s := enqueued ..) (hcfg ▸ hc) (advance_sorted hs d k) (advance_quiet hq d k) hrest).trans ?_
    rw [hcfg, raisedBy_advance hc hs d hk, advanceAll_enqueued, enqueued_enqueued, ← raisedBy_cons, advanceAll]

/-- An active accumulator that would leave `i32` refuses the step, whatever the channels before it do (R123). -/
theorem execChannels_refused {d : Nat} {ks : List Channel} {s : State} (hq : s.quiet)
    (h : ∃ k ∈ ks, s.acc[k] + d > i32Max) : execChannels d ks s = .error .i32Range := by
  induction ks generalizing s with
  | nil => obtain ⟨k, hk, -⟩ := h; cases hk
  | cons j ks ih =>
    by_cases hj : s.acc[j] + d > i32Max
    · rw [execChannels, execChannel, if_pos hj]
    · obtain ⟨k, hk, hgt⟩ := h
      have hne : k ≠ j := by rintro rfl; exact hj hgt
      obtain ⟨vs, hexec, -⟩ := execChannel_quiet hq (Int.not_lt.mp hj)
      have hacc := advance_acc d j k s
      rw [if_neg hne] at hacc
      rw [execChannels, hexec]
      exact ih (advance_quiet hq d j)
        ⟨k, List.mem_of_ne_of_mem hne hk, hgt.trans_eq (congrArg (· + (d : Int)) hacc).symm⟩

theorem activeChannels_pairwise (n : ActiveOc) : (activeChannels n).Pairwise (· < ·) := by cases n <;> decide

theorem mem_activeChannels (n : ActiveOc) (k : Channel) : k ∈ activeChannels n ↔ k.val < n.count := by
  cases n <;> revert k <;> decide

theorem activeChannels_nodup (n : ActiveOc) : (activeChannels n).Nodup :=
  (activeChannels_pairwise n).imp fun h => h.ne

theorem exec_tExec_multichannel {delta : Word} {s : State} (hvar : s.cfg.variant = .multichannel)
    (hlt : delta.toNat < 2 ^ 31) :
    exec (.tExec delta) s = finish (execChannels delta.toNat (activeChannels s.cfg.activeOc) s) := by
  change finish (timerExec delta.toNat s) = _
  rw [timerExec, if_neg (by omega), hvar]

/-- Settles O47: the accumulators and flags are those of `advanceAll`, the queue, the level and the trace those of
`enqueued`; the rest of the state is in neither. -/
theorem timerExecStep : Obligations.TimerExecStep := by
  refine ⟨fun delta => hasWord_iff.mpr rfl, fun n => ⟨activeChannels_pairwise n, mem_activeChannels n⟩,
    fun delta s hinv hq hvar hlt hle => ?_, fun delta s hq hvar hlt hgt => ?_⟩
  · have hc := hinv.config
    have hs : s.sorted .timer := (hinv.storage .timer).1
    have hks := activeChannels_nodup s.cfg.activeOc
    have hstep := execChannels_quiet hks hc hs hq hle
    have hacc := advanceAll_acc hks delta.toNat s
    have hflag := advanceAll_flag hs delta.toNat hc hks
    have hbit (b : Nat) := advanceAll_getLsbD hs delta.toNat hc (activeChannels s.cfg.activeOc) (b := b)
    have hbut := advanceAll_sameStorageBut hs delta.toNat (activeChannels s.cfg.activeOc)
    obtain ⟨m, a, hframe⟩ := advanceAll_frame delta.toNat (activeChannels s.cfg.activeOc) s
    rw [hframe] at hstep hacc hflag hbit hbut
    refine ⟨(enqueued s.cfg.tLevel (raisedVectors s delta.toNat) { s with storT := m, acc := a }).setResult .none,
      ?_, fun k hk => ⟨?_, ?_⟩, fun k hk => ⟨?_, ?_⟩, hbit, hbut, ?_, fun l hl => ?_, ?_, ?_, fun p => ?_, rfl, rfl,
      ⟨rfl, rfl, rfl⟩, ⟨rfl, fun p => ?_, rfl, rfl, rfl, rfl⟩, rfl, rfl⟩
    · rw [exec_tExec_multichannel hvar hlt, hstep, finish_ok, raisedVectors_eq]
    · exact (hacc k).trans (if_pos hk)
    · exact (hflag k).trans (by simp only [hk, decide_true, Bool.true_and])
    · exact (hacc k).trans (if_neg hk)
    · exact (hflag k).trans (by simp only [hk, decide_false, Bool.false_and, Bool.or_false])
    · exact (enqueued_getElem ..).trans (if_pos rfl)
    · exact (enqueued_getElem ..).trans (if_neg hl)
    · exact enqueued_irq _ _ _ (.inl hinv.request)
    · exact enqueued_out _ _ _ (.inl hinv.request)
    · cases p <;> rfl
    · cases p <;> rfl
  · rw [exec_tExec_multichannel hvar hlt, execChannels_refused hq hgt, finish_error]

/-! ### The legacy variant (R122) -/

/-- With no listener the vectors of a list of channels are raised in order, duplicates and all. -/
theorem injectChannels_quiet {s : State} (hq : s.quiet) (ks : List Channel) :
    injectChannels ks s = .ok (enqueued s.cfg.tLevel (ks.map (timerVector s.cfg)) s) := by
  induction ks generalizing s with
  | nil => rw [injectChannels, List.map_nil, enqueued_nil]
  | cons k ks ih =>
    rw [injectChannels, injectVector_enqueued hq]
    exact (ih (s := enqueued _ _ s) hq).trans (congrArg _ (enqueued_enqueued ..))

theorem exec_tExec_legacy {delta : Word} {s : State} (hq : s.quiet) (hvar : s.cfg.variant = .legacy)
    (hlt : delta.toNat < 2 ^ 31) : exec (.tExec delta) s =
      .next { enqueued s.cfg.tLevel
        (if tcntValue s < s.prevTcnt then [0, 1, 2, 3].map (timerVector s.cfg) else []) s with
        prevTcnt := tcntValue s, result := .none } := by
  change finish (timerExec delta.toNat s) = _
  rw [timerExec, if_neg (by omega), hvar, legacyExec]
  by_cases hwrap : tcntValue s < s.prevTcnt
  · simp only [hwrap, if_true, injectChannels_quiet hq]
    rfl
  · simp only [hwrap, if_false, enqueued_nil]
    rfl

theorem tcntValue_toNat (s : State) : (tcntValue s).toNat = s.cycles.toNat / 4 % 65536 := by
  rw [tcntValue_eq, BitVec.toNat_ofNat]

theorem map_timerVector (c : Cfg) : [0, 1, 2, 3].map (timerVector c) =
    [c.tVecBase, c.tVecBase + 1, c.tVecBase + 2, c.tVecBase + 3] := by
  simp [timerVector]

/-- Settles O48: a write has no side effect; the exec step is a run of the four vectors, or of none. -/
theorem legacyVariant : Obligations.LegacyVariant := by
  refine ⟨fun n s x hn hinv hvar hx => ?_, fun delta s hq hvar hlt => ?_⟩
  · have hs : s.sorted .timer := (hinv.storage .timer).1
    refine ⟨fun v => ⟨_, exec_write_legacy hinv.config hvar hn hx (.inl ⟨v, rfl, rfl⟩), rfl, ?_,
        sameStorageBut_setReg16 hs x .none v⟩,
      fun lo v => ⟨_, exec_write_legacy hinv.config hvar hn hx (.inr ⟨lo, v, rfl, rfl⟩), rfl,
        sameStorageBut_setByte hs _ .none v⟩⟩
    rw [setResult_reg16, setReg16_reg16 hs]
  · have hexec := exec_tExec_legacy hq hvar hlt
    refine ⟨_, hexec, tcntValue_toNat s, fun hge => ?_, fun hwrap => ?_⟩
    · rw [if_neg (by rw [BitVec.lt_def, tcntValue_toNat]; omega), enqueued_nil]
    · rw [if_pos (by rw [BitVec.lt_def, tcntValue_toNat]; exact hwrap), map_timerVector]
      refine ⟨?_, fun l hl => ?_, ?_, ?_, rfl⟩
      · exact (enqueued_getElem ..).trans (if_pos rfl)
      · exact (enqueued_getElem ..).trans (if_neg hl)
      · exact enqueued_irq _ _ _ (.inr (List.cons_ne_nil s.cfg.tVecBase _))
      · exact enqueued_out _ _ _ (.inr (List.cons_ne_nil s.cfg.tVecBase _))

end Sys2Proof.TimerExec

namespace Sys2Proof.ClockPit

/-! PROOFS. The clock and the periodic timer (`43_clock_pit.md` R130 to R136): where their three registers stand, what
restarts the timer, what its exec step leaves with no listener, and the formulas on the default map. -/

open Sys2Proof Sys2Proof.Machine Sys2Proof.RegionAccess Sys2Proof.TimerRegisters Sys2Proof.TimerExec

/-! ### Where the three registers stand (R23) -/

theorem lane_not_mem_of_apart {l : List Nat} {b : Nat} (h : ∀ y ∈ l.map (·, 1), Cfg.apart (b, 2) y) (lo : Bool) :
    b + lo.toNat ∉ l := fun hmem => by
  have hapart := h _ (List.mem_map_of_mem hmem)
  have := lo.toNat_le
  simp only [Cfg.apart] at hapart
  omega

/-- P7: no register that comes before one of them in the region's decode overlaps it. -/
theorem sys_halfAt {c : Cfg} (hc : c.WF) :
    HalfAt c .sys .syncr c.sSyncr ∧ HalfAt c .sys .picr c.sPicr ∧ HalfAt c .sys .pitr c.sPitr := by
  obtain ⟨-, ⟨-, -, hS, -⟩, -⟩ := hc
  obtain ⟨hFixedE, -, hF⟩ := List.pairwise_append.mp hS
  obtain ⟨hfixed, -, hE⟩ := List.pairwise_append.mp hFixedE
  simp only [List.forall_mem_append, List.forall_mem_cons] at hE hF
  simp only [List.pairwise_cons, List.forall_mem_cons] at hfixed
  obtain ⟨-, -, -, -, -, hpicrE, hpitrE, -⟩ := hE
  obtain ⟨⟨-, -, -, -, -, hpicrF, hpitrF, -⟩, -⟩ := hF
  refine ⟨fun lo => ?_, fun lo => ?_, fun lo => ?_⟩ <;>
    simp [regAt, regAtS, covers16_lane, lane_ne_of_apart, covers16_lane_of_apart, hfixed,
      lane_not_mem_of_apart hpicrE, lane_not_mem_of_apart hpicrF, lane_not_mem_of_apart hpitrE,
      lane_not_mem_of_apart hpitrF]

/-! ### Restarting the periodic timer (R132, R134) -/

/-- The system clock runs at `f`, and the periodic timer has restarted from `load`. -/
def restarted (f : Nat) (load : Int) (s : State) : State := { s with sysclk := f, pitLoad := load, pitCur := load }

@[simp] theorem restarted_byteAt (f : Nat) (load : Int) (s : State) (r : Region) (o : Nat) :
    (restarted f load s).byteAt r o = s.byteAt r o := by
  cases r <;> rfl

@[simp] theorem restarted_reg16 (f : Nat) (load : Int) (s : State) (r : Region) (o : Nat) :
    (restarted f load s).reg16 r o = s.reg16 r o := by
  simp [State.reg16]

theorem pitRecompute_restarted {s : State} (h : pitLoadNow s ≤ i32Max) :
    pitRecompute s = .ok (restarted s.sysclk (pitLoadNow s) s) :=
  pitRecompute_of_le h

theorem clockUpdate_restarted {s : State} {f : Nat} (hf : f = clockOf s.cfg (s.reg16 .sys s.cfg.sSyncr)) {load : Int}
    (hload : load = pitLoadOf s.cfg (s.reg16 .sys s.cfg.sPicr) (s.reg16 .sys s.cfg.sPitr) f) (hle : load ≤ i32Max) :
    clockUpdate s = .ok (restarted f load s) := by
  subst hf hload
  exact pitRecompute_of_le hle

/-- A write by name whose side effect restarts the timer leaves the storages but for its own register, which takes the
value written. -/
theorem restarted_store {acc : RegAccess} {x : Nat} {s u : State} (hs : s.sorted .sys) (hu : Stores acc .sys x s u)
    (f : Nat) (load : Int) :
    SameStorageBut .sys x 2 s ((restarted f load u).setResult .none) ∧
      ∀ v, acc = .write16 v → ((restarted f load u).setResult .none).reg16 .sys x = v := by
  refine ⟨fun r o hout => ?_, ?_⟩
  · rw [setResult_byteAt, restarted_byteAt, hu.sameStorageBut hs r o hout]
  · rintro v rfl
    obtain ⟨w, hw, rfl⟩ | ⟨lo, w, hw, -⟩ := hu
    · cases hw
      rw [setResult_reg16, restarted_reg16, setReg16_reg16 hs]
    · cases hw

/-- Settles O43: a write is a store, which leaves `PICR` and `PITR`, and then the update of the clock. -/
theorem clockControlRegister : Obligations.ClockControlRegister := by
  rintro s x hinv rfl
  obtain ⟨hsyncr, hpicr, hpitr⟩ := sys_halfAt hinv.config
  have h : NamesHalf s.cfg .syncr .sys .syncr s.cfg.sSyncr := ⟨rfl, rfl, hsyncr⟩
  have hsorted : s.sorted .sys := (hinv.storage .sys).1
  refine ⟨exec_read16_half hinv.config h nofun nofun, exec_read8_half hinv.config h nofun nofun, ?_⟩
  intro acc u load (hu : Stores acc .sys _ s u) hload hle
  obtain ⟨o, hexec⟩ := exec_write_half hinv.config h nofun hu
  have hbut := hu.sameStorageBut hsorted
  generalize hf : clockOf s.cfg (u.reg16 .sys s.cfg.sSyncr) = f at hload ⊢
  have hside : sideEffect .sys o (some .syncr) u = .ok (restarted f load u) := by
    refine clockUpdate_restarted (by rw [hu.cfg, hf]) ?_ hle
    rw [hu.cfg, reg16_of_sameStorageBut hbut (hsyncr.apart hpicr nofun),
      reg16_of_sameStorageBut hbut (hsyncr.apart hpitr nofun), hload]
  obtain ⟨hstorage, hword⟩ := restarted_store hsorted hu f load
  exact ⟨_, hexec.trans (by rw [hside, finish_ok]), hstorage, hword, rfl⟩

/-- Settles O44: a write is a store, which leaves `SYNCR` and so the clock, and then the recomputation. -/
theorem periodicTimerRegisters : Obligations.PeriodicTimerRegisters := by
  intro n s x hn hinv
  obtain ⟨hsyncr, hpicr, hpitr⟩ := sys_halfAt hinv.config
  have hsorted : s.sorted .sys := (hinv.storage .sys).1
  obtain ⟨g, h, hcount, hdata, hside⟩ : ∃ g, NamesHalf s.cfg n .sys g x ∧ g ≠ .tcnt ∧ (∀ p, g ≠ .data p) ∧
      ∀ o u, sideEffect .sys o (some g) u = pitRecompute u := by
    obtain ⟨rfl, rfl⟩ | ⟨rfl, rfl⟩ := hn
    · exact ⟨.picr, ⟨rfl, rfl, hpicr⟩, nofun, nofun, fun _ _ => rfl⟩
    · exact ⟨.pitr, ⟨rfl, rfl, hpitr⟩, nofun, nofun, fun _ _ => rfl⟩
  refine ⟨exec_read16_half hinv.config h hcount hdata, exec_read8_half hinv.config h hcount hdata, ?_⟩
  intro acc u load (hu : Stores acc .sys _ s u) hload hle
  obtain ⟨o, hexec⟩ := exec_write_half hinv.config h hcount hu
  have hnow : pitLoadNow u = load := by
    obtain ⟨m, hframe⟩ := hu.frame
    have hclock : u.sysclk = s.sysclk := by rw [hframe, setStor_sysclk]
    rw [hload, pitLoadNow, hclock, hinv.clock, hu.cfg]
  obtain ⟨hstorage, hword⟩ := restarted_store hsorted hu u.sysclk load
  refine ⟨_, hexec.trans ?_, hstorage, hword, rfl⟩
  rw [hside, pitRecompute_restarted (hnow.trans_le hle), hnow, finish_ok]

/-! ### The exec step (R135, R136) -/

theorem exec_sExec (delta : Word) (s : State) : exec (.sExec delta) s = finish (clockExec delta.toNat s) := rfl

/-- What firing raises: the vector of the control register, unless it is pending (R136). -/
def pitRaises (s : State) : List Byte :=
  let c := s.reg16 .sys s.cfg.sPicr
  if picrVector s.cfg c ∈ s.queue[picrLevel s.cfg c] then [] else [picrVector s.cfg c]

theorem raisePit_quiet {s : State} (hq : s.quiet) :
    raisePit s = .ok (enqueued (picrLevel s.cfg (s.reg16 .sys s.cfg.sPicr)) (pitRaises s) s) :=
  raiseOnce_enqueued hq _ _

section

variable {s : State} {d : Nat} (hlt : d < 2 ^ 31)

include hlt

theorem clockExec_disabled (h : s.pitLoad = 0) : clockExec d s = .ok s := by
  rw [clockExec, if_neg (by omega), if_pos h]

variable (h : s.pitLoad ≠ 0)

include h

theorem clockExec_refused (hcount : s.pitCur - d < i32Min) : clockExec d s = .error .i32Range := by
  rw [clockExec, if_neg (by omega), if_neg h, if_pos hcount]

variable (hrange : i32Min ≤ s.pitCur - d)

include hrange

theorem clockExec_counting (hcount : 0 < s.pitCur - d) :
    clockExec d s = .ok { s with pitCur := s.pitCur - d } := by
  rw [clockExec, if_neg (by omega), if_neg h, if_neg (by omega), if_pos hcount]

theorem clockExec_firing (hq : s.quiet) (hcount : s.pitCur - d ≤ 0) :
    clockExec d s = .ok (enqueued (picrLevel s.cfg (s.reg16 .sys s.cfg.sPicr)) (pitRaises s)
      { s with pitCur := s.pitCur - d + s.pitLoad }) := by
  rw [clockExec, if_neg (by omega), if_neg h, if_neg (by omega), if_neg (by omega),
    raisePit_quiet (s := { s with pitCur := s.pitCur - d }) hq]
  rfl

end

/-- An enabled timer has a level above 0 (R136). -/
theorem picrLevel_ne_zero {s : State} (hinv : s.Inv) (h : s.pitLoad ≠ 0) :
    picrLevel s.cfg (s.reg16 .sys s.cfg.sPicr) ≠ 0 := fun hl =>
  h (hinv.load.trans (if_pos hl))

/-- Settles O51: the enabled step leaves `s` with another count and, where it fires, the vector at the back of its queue. -/
theorem clockExecStep : Obligations.ClockExecStep := by
  rintro delta s lvl vec fires hinv hq hlvl hvec hfires
  refine ⟨hasWord_iff.mpr rfl, fun hlt h => ?_, fun hlt h hcount => ?_, fun hlt h hrange => ?_⟩
  · rw [exec_sExec, clockExec_disabled hlt h, finish_ok]
  · rw [exec_sExec, clockExec_refused hlt h hcount, finish_error]
  · obtain ⟨vs, hvs⟩ : ∃ vs, vs = if fires = true ∧ vec ∉ s.queue[lvl] then [vec] else [] := ⟨_, rfl⟩
    have hstep : clockExec delta.toNat s =
        .ok (enqueued lvl vs { s with pitCur := s.pitCur - delta.toNat + (if fires then s.pitLoad else 0) }) := by
      by_cases hcount : s.pitCur - delta.toNat ≤ 0
      · obtain rfl : fires = true := by simpa using hfires.trans (decide_eq_true hcount)
        have hraises : pitRaises s = vs := by simp [pitRaises, hvs, hlvl, hvec]
        rw [clockExec_firing hlt h hrange hq hcount, hraises, hlvl, if_pos rfl]
      · obtain rfl : fires = false := by simpa using hfires.trans (decide_eq_false hcount)
        rw [clockExec_counting hlt h hrange (by omega), hvs]
        simp
    refine ⟨(enqueued lvl vs { s with pitCur := _ }).setResult .none, ?_, ?_, rfl, ?_, fun l hl => ?_, ?_, ?_, rfl⟩
    · rw [exec_sExec, hstep, finish_ok]
    · rw [hlvl]; exact picrLevel_ne_zero hinv h
    · refine (enqueued_getElem ..).trans ((if_pos rfl).trans ?_)
      rw [hvs, apply_ite (s.queue[lvl] ++ ·), List.append_nil]
    · exact (enqueued_getElem ..).trans (if_neg hl)
    · exact enqueued_irq _ _ _ (.inl hinv.request)
    · refine (enqueued_out _ _ _ (.inl hinv.request)).trans (congrArg (s.out ++ ·) ?_)
      rw [hvs, apply_ite (List.map _)]
      rfl

/-! ### The formulas on the default map (R131, R133) -/

theorem fieldOf_eq (v : Half) (lo width : Nat) : fieldOf v lo width = (v.extractLsb' lo width).toNat := by
  rw [fieldOf, BitVec.extractLsb'_toNat]

theorem toNat_getLsbD (v : Half) (i : Nat) : (v.getLsbD i).toNat = (v.extractLsb' i 1).toNat := by
  rw [BitVec.extractLsb'_toNat, BitVec.getLsbD, Nat.toNat_testBit, Nat.shiftRight_eq_div_pow, pow_one]

theorem getLsbD_eq_true_iff (v : Half) (i : Nat) : v.getLsbD i = true ↔ v.extractLsb' i 1 = 1 := by
  rw [← BitVec.toNat_inj, ← toNat_getLsbD]
  cases v.getLsbD i <;> decide

theorem extClockHz_pos : 0 < Cfg.default.extClockHz := Nat.succ_pos _

theorem picrLevel_default_eq_zero (c : Half) : picrLevel Cfg.default c = 0 ↔ c.extractLsb' 8 3 = 0 := by
  have hlt := (c.extractLsb' 8 3).isLt
  rw [picrLevel, fieldOf_eq, Fin.ext_iff, ← BitVec.toNat_inj]
  change (c.extractLsb' 8 3).toNat % 8 = 0 ↔ (c.extractLsb' 8 3).toNat = 0
  omega

theorem clockRatio_default (s : Half) : clockRatio Cfg.default s =
    4 * ((s.extractLsb' 8 6).toNat + 1) * 2 ^ (2 * (s.extractLsb' 15 1).toNat + (s.extractLsb' 14 1).toNat) := by
  rw [clockRatio, fieldOf_eq, toNat_getLsbD, toNat_getLsbD]
  rfl

theorem ratio_bounds {y w x : Nat} (hy : y < 2 ^ 6) (hw : w < 2 ^ 1) (hx : x < 2 ^ 1) :
    4 ≤ 4 * (y + 1) * 2 ^ (2 * w + x) ∧ 4 * (y + 1) * 2 ^ (2 * w + x) ≤ 2048 := by
  have hlow : 4 ≤ 4 * (y + 1) := by omega
  have hhigh : 4 * (y + 1) ≤ 256 := by omega
  have hexp : 2 * w + x ≤ 3 := by omega
  exact ⟨hlow.trans (Nat.le_mul_of_pos_right _ (Nat.two_pow_pos _)),
    (Nat.mul_le_mul hhigh (Nat.pow_le_pow_right Nat.two_pos hexp)).trans_eq rfl⟩

theorem pitPrescale_default (m : Half) :
    pitPrescale Cfg.default m = if m.extractLsb' 8 1 = 1 then 512 else 1 :=
  if_congr (getLsbD_eq_true_iff m 8) rfl rfl

/-- Settles O50: each field is a slice of its register's value. -/
theorem clockAndLoadFormulas : Obligations.ClockAndLoadFormulas := by
  refine ⟨fun s => ?_, fun c m sysclk => ?_⟩
  · have hratio := clockRatio_default s
    obtain ⟨hlow, hhigh⟩ :=
      ratio_bounds (s.extractLsb' 8 6).isLt (s.extractLsb' 15 1).isLt (s.extractLsb' 14 1).isLt
    rw [← hratio] at hlow hhigh
    exact ⟨rfl, hratio, hlow, hhigh, Nat.mul_div_cancel_left _ extClockHz_pos⟩
  · have hmodulus : pitModulus Cfg.default m = (m.extractLsb' 0 8).toNat := fieldOf_eq m 0 8
    rw [pitLoadOf, pitPrescale_default, hmodulus]
    exact if_congr (picrLevel_default_eq_zero c) rfl rfl

end Sys2Proof.ClockPit

namespace Sys2Proof.InterruptArbiter

/-! PROOFS. The interrupt arbiter (`44_interrupt_arbiter.md` R150 to R160): the request level once a queue has grown, what an
acknowledge leaves of the state, and that nothing else takes a vector out of its queue. -/

open Sys2Proof Sys2Proof.Machine Sys2Proof.RegionAccess Sys2Proof.PortAccess Sys2Proof.TimerExec

/-! ### The operand of the interrupt operations (R60, R61) -/

theorem levelOperand_levelWord (l : Level) (f : Level → Except DecodeError Instr) :
    levelOperand (levelWord l) f = f l := by
  fin_cases l <;> rfl

/-- An operand pair of a level and a byte, as the two rows that have one read it. -/
theorem levelOperand_byteOperand (l : Level) (v : Byte) (f : Level → Byte → Instr) :
    levelOperand (levelWord l) (fun m => byteOperand (byteWord v) (f m)) = .ok (f l v) := by
  rw [levelOperand_levelWord, byteOperand_byteWord]

/-! ### The request level (R153 to R155) -/

/-- R153 in the terms of R155: nothing is pending above the level, and something at it unless it is 0. -/
theorem highest_eq_iff {q : Vector (List Byte) 8} {l : Level} :
    highest q = l ↔ (∀ m : Level, l < m → q[m] = []) ∧ (l ≠ 0 → q[l] ≠ []) := by
  constructor
  · rintro rfl
    exact ⟨fun m => highest_above, highest_pending⟩
  · rintro ⟨habove, hpending⟩
    obtain hlt | heq | hgt := lt_trichotomy (highest q) l
    · exact absurd (highest_above hlt) (hpending (Fin.ne_zero_of_lt hlt))
    · exact heq
    · exact absurd (habove _ hgt) (highest_pending (Fin.ne_zero_of_lt hgt))

/-- A vector more at level 0 does not change the request level; one at another level raises it to that level (R154). -/
theorem highest_enqueued (vec : Byte) (lvl : Level) (s : State) :
    highest (enqueued lvl [vec] s).queue = if lvl = 0 then highest s.queue else max (highest s.queue) lvl := by
  rw [highest_eq_iff]
  simp only [enqueued_getElem]
  split
  next h0 =>
    subst h0
    exact ⟨fun m hm => by rw [if_neg (Fin.ne_zero_of_lt hm), highest_above hm],
      fun hne => by rw [if_neg hne]; exact highest_pending hne⟩
  next h0 =>
    refine ⟨fun m hm => ?_, fun hne => ?_⟩
    · obtain ⟨hold, hnew⟩ := max_lt_iff.mp hm
      rw [if_neg hnew.ne', highest_above hold]
    · split
      next => simp
      next hmax =>
        have hold : max (highest s.queue) lvl = highest s.queue := (max_choice ..).resolve_right hmax
        rw [hold] at hne ⊢
        exact highest_pending hne

theorem exec_inject (vec : Byte) (lvl : Level) (s : State) :
    exec (.inject vec lvl) s = finish (injectVector vec lvl s) := rfl

/-- Settles O25: with no listener the state is `enqueued`, else what listeners can make of it. -/
theorem injectAppendsAndRescans : Obligations.InjectAppendsAndRescans := by
  intro vec lvl s
  refine ⟨hasWord_iff.mpr (levelOperand_byteOperand lvl vec fun l v => .inject v l), fun hs => ?_⟩
  obtain ⟨u, hu⟩ := injectVector_completes hs vec lvl
  obtain ⟨hr, hback, hirq⟩ := injectVector_ok hu
  refine ⟨u.setResult .none, by rw [exec_inject, hu, finish_ok], hirq, hback, { hr with result := rfl }, rfl,
    fun r o => by rw [setResult_byteAt, hr.sameStorage], fun hq => ?_⟩
  rw [injectVector_enqueued hq, Except.ok.injEq] at hu
  subst hu
  refine ⟨(enqueued_getElem ..).trans (if_pos rfl), fun l hl => (enqueued_getElem ..).trans (if_neg hl),
    enqueued_out _ _ _ (.inr nofun), rfl, fun hlevel => ?_⟩
  have hval := congrArg Fin.val (hirq.trans (highest_enqueued vec lvl s))
  rw [← hlevel] at hval
  rw [setResult_irq, hval]
  split
  next => rfl
  next => exact Fin.coe_max ..

/-! ### The acknowledge (R152, R158) -/

/-- Reactions with the request level driven before them, and driven to the highest non-empty level after them, as an
acknowledge does: all of it is what reactions alone can do. -/
theorem reacted_of_irqLine {s u t : State} {l : Level} (h : Reacted (s.setIrq l) u)
    (g : Reacted (u.setIrq (highest u.queue)) t) (hirq : t.irq = highest t.queue) : Reacted s t :=
  have hu : Reacted (s.setIrq l) (u.setIrq (highest u.queue)) := { h with irq := .inr rfl }
  { hu.trans g with irq := .inr hirq }

/-- An acknowledge with something pending takes the front and reports the cleared line; the rest, the rescan included, is
no more than reactions can do. -/
theorem ackLevel_reacted {s t : State} {lvl : Level} {v : Word} {vec : Byte} {rest : List Byte}
    (hv : s.queue[lvl] = vec :: rest) (h : ackLevel lvl s = .ok (v, t)) :
    Reacted ((s.setQueue lvl rest).log (.irqLine 0)) t := by
  unfold ackLevel at h
  rw [hv] at h
  simp only at h
  split at h
  next => cases h
  next u hu =>
    split at h
    next => cases h
    next w hw =>
      cases h
      obtain ⟨hr, hirq⟩ := rescan_ok hw
      exact reacted_of_irqLine (l := 0) (emit_reacted hu) ((reacted_log ..).trans hr) hirq

/-- `s` without the front of the queue of level `lvl`, `rest` being what is left of it, and the two events of R152. -/
def popped (lvl : Level) (rest : List Byte) (s : State) : State :=
  { s with
    queue := s.queue.set lvl rest
    irq := highest (s.queue.set lvl rest)
    out := s.out ++ [.irqLine 0, .irqLine (highest (s.queue.set lvl rest))] }

@[simp] theorem popped_getElem (lvl : Level) (rest : List Byte) (s : State) (l : Level) :
    (popped lvl rest s).queue[l] = if l = lvl then rest else s.queue[l] :=
  setQueue_getElem s lvl l rest

theorem ackLevel_popped {s : State} (hq : s.quiet) {lvl : Level} {vec : Byte} {rest : List Byte}
    (hv : s.queue[lvl] = vec :: rest) : ackLevel lvl s = .ok (vec.setWidth 32, popped lvl rest s) := by
  rw [ackLevel_quiet hq hv, popped, ← List.singleton_append, ← List.append_assoc]
  rfl

/-- What an acknowledge with something pending leaves in the queues. -/
theorem ackLevel_queue {s t : State} {lvl : Level} {v : Word} {vec : Byte} {rest : List Byte}
    (hv : s.queue[lvl] = vec :: rest) (h : ackLevel lvl s = .ok (v, t)) :
    rest <+: t.queue[lvl] ∧ ∀ l : Level, l ≠ lvl → s.queue[l] <+: t.queue[l] := by
  have hgrow (l : Level) : (if l = lvl then rest else s.queue[l]) <+: t.queue[l] :=
    setQueue_getElem s lvl l rest ▸ (ackLevel_reacted hv h).queue l
  exact ⟨by simpa using hgrow lvl, fun l hl => by simpa [hl] using hgrow l⟩

theorem exec_ack_next {s t : State} {lvl : Level} : exec (.ack lvl) s = .next t ↔
    ∃ v u, ackLevel lvl s = .ok (v, u) ∧ t = u.setResult (.word v) := by
  change execAck lvl s = .next t ↔ _
  unfold execAck
  rcases ackLevel lvl s with e | ⟨v, u⟩
  · simp
  · simp [eq_comm, and_assoc]

/-- Settles O26: the test reads one queue; the acknowledge answers the front and leaves what the listeners make of the
state without it. -/
theorem pendingTestAndAcknowledge : Obligations.PendingTestAndAcknowledge := by
  refine ⟨fun vec lvl s => ⟨hasWord_iff.mpr (levelOperand_byteOperand lvl vec fun l v => .haspend v l),
    hasPending vec lvl s, rfl, decide_eq_true_iff⟩, fun lvl s =>
    ⟨hasWord_iff.mpr (levelOperand_levelWord lvl fun l => unused 0 (.ack l)),
      fun hempty => exec_ack_next.mpr ⟨_, _, ackLevel_empty hempty, rfl⟩, fun vec rest hv hs => ?_⟩⟩
  obtain ⟨v, t, ht⟩ := ackLevel_completes hs lvl
  obtain ⟨rfl, hirq, -⟩ := ackLevel_ok hv ht
  have hr := ackLevel_reacted hv ht
  obtain ⟨hfront, hothers⟩ := ackLevel_queue hv ht
  refine ⟨_, exec_ack_next.mpr ⟨_, _, ht, rfl⟩, by rw [setResult_result, BitVec.ofNat_toNat], hirq, hfront, hothers,
    fun r o => ?_, hr.cycles, hr.acc, ⟨hr.sysclk, hr.pitLoad, hr.pitCur⟩, fun hq => ?_⟩
  · rw [setResult_byteAt, hr.sameStorage]; simp
  · rw [ackLevel_popped hq hv, Except.ok.injEq, Prod.mk.injEq] at ht
    obtain ⟨-, rfl⟩ := ht
    exact ⟨(popped_getElem ..).trans (if_pos rfl), fun l hl => (popped_getElem ..).trans (if_neg hl), rfl, rfl⟩

/-! ### What an operation keeps that takes nothing (R160) -/

/-- All that any operation but `ACK`, `STEP` and `RESET` does to these fields, whatever the listeners do: the
configuration (R4) and the cycle counter (R13) stay; the queues (R160) and the trace (R34) only grow at their ends; the
request level follows the queues (R155). -/
structure Untaken (s t : State) : Prop where
  cfg : t.cfg = s.cfg
  cycles : t.cycles = s.cycles
  queue : ∀ l : Level, s.queue[l] <+: t.queue[l]
  irq : (t.queue = s.queue ∧ t.irq = s.irq) ∨ t.irq = highest t.queue
  out : s.out <+: t.out

theorem untaken_of_reacted {s t : State} (h : Reacted s t) : Untaken s t where
  cfg := h.cfg
  cycles := h.cycles
  queue := h.queue
  irq := h.irq
  out := h.out

theorem Untaken.trans {s t u : State} (h : Untaken s t) (g : Untaken t u) : Untaken s u where
  cfg := g.cfg.trans h.cfg
  cycles := g.cycles.trans h.cycles
  queue l := (h.queue l).trans (g.queue l)
  irq := by
    obtain ⟨hqueue, hirq⟩ | hlevel := g.irq
    · rw [hqueue, hirq]
      exact h.irq
    · exact .inr hlevel
  out := h.out.trans g.out

/-- An update of other fields. -/
theorem untaken_of_eq {s t : State} (hcfg : t.cfg = s.cfg) (hcycles : t.cycles = s.cycles) (hqueue : t.queue = s.queue)
    (hirq : t.irq = s.irq) (hout : t.out = s.out) : Untaken s t where
  cfg := hcfg
  cycles := hcycles
  queue l := by rw [hqueue]
  irq := .inl ⟨hqueue, hirq⟩
  out := by rw [hout]

theorem Untaken.refl (s : State) : Untaken s s := untaken_of_eq rfl rfl rfl rfl rfl

/-! ### The ports and the stores (R87, R90 to R94) -/

theorem untaken_setPort (s : State) (p : Port) (v : PortState) : Untaken s (s.setPort p v) := by
  apply untaken_of_eq <;> simp

theorem untaken_portSetDir {p : Port} {m : Byte} {s t : State} (h : portSetDir p m s = .ok t) : Untaken s t :=
  (untaken_setPort s p _).trans (untaken_of_reacted (emit_reacted' h))

theorem untaken_bumpWriteCounter (p : Port) (s : State) : Untaken s (bumpWriteCounter p s) := by
  obtain ⟨w, n, hbump, -⟩ := bumpWriteCounter_eq p s
  rw [hbump]
  exact (untaken_setPort s p _).trans (untaken_of_eq rfl rfl rfl rfl rfl)

theorem untaken_portWriteTx {p : Port} {b : Byte} {s t : State} (h : portWriteTx p b s = .ok t) : Untaken s t :=
  (untaken_setPort s p _).trans ((untaken_bumpWriteCounter p _).trans (untaken_of_reacted (emit_reacted' h)))

theorem untaken_storeByte (r : Region) (o : Nat) (b : Byte) (s : State) : Untaken s (storeByte r o b s) := by
  obtain ⟨m, hstore⟩ := storeByte_frame r o b s
  rw [hstore]
  apply untaken_of_eq <;> simp

/-! ### The timer's exec step (R118 to R122) -/

theorem untaken_finishChannel {k : Channel} {s t : State} (h : finishChannel k s = .ok t) : Untaken s t := by
  have hflag : Untaken s (s.setFlag k) := by
    obtain ⟨m, hset⟩ := setFlag_frame s k
    rw [hset]
    exact untaken_of_eq rfl rfl rfl rfl rfl
  obtain ⟨-, rfl⟩ | ⟨-, -, rfl⟩ | ⟨-, -, hraise⟩ := finishChannel_ok h
  · exact .refl _
  · exact hflag
  · exact hflag.trans (untaken_of_reacted (raiseOnce_reacted hraise))

theorem untaken_execChannels {d : Nat} {ks : List Channel} {s t : State} (h : execChannels d ks s = .ok t) :
    Untaken s t := by
  induction ks generalizing s with
  | nil => cases h; exact .refl _
  | cons k ks ih =>
    rw [execChannels] at h
    split at h
    next => cases h
    next u hu =>
      have hacc : Untaken s (s.setAcc k (s.acc[k] + d)) := untaken_of_eq rfl rfl rfl rfl rfl
      exact (hacc.trans (untaken_finishChannel (execChannel_ok hu).2)).trans (ih h)

theorem untaken_injectChannels {ks : List Channel} {s t : State} (h : injectChannels ks s = .ok t) : Untaken s t := by
  induction ks generalizing s with
  | nil => cases h; exact .refl _
  | cons k ks ih =>
    rw [injectChannels] at h
    split at h
    next => cases h
    next u hu => exact (untaken_of_reacted (injectVector_ok hu).1).trans (ih h)

theorem untaken_legacyExec {s t : State} (h : legacyExec s = .ok t) : Untaken s t := by
  unfold legacyExec at h
  split at h
  next => cases h
  next u hu =>
    cases h
    have hu : Untaken s u := by
      split at hu
      next => exact untaken_injectChannels hu
      next => cases hu; exact .refl _
    exact hu.trans (untaken_of_eq rfl rfl rfl rfl rfl)

theorem untaken_timerExec {d : Nat} {s t : State} (h : timerExec d s = .ok t) : Untaken s t := by
  unfold timerExec at h
  split at h
  next => cases h
  next =>
    split at h
    next => exact untaken_execChannels h
    next => exact untaken_legacyExec h

/-! ### The clock and the periodic timer (R132, R134, R135) -/

theorem untaken_pitRecompute {s t : State} (h : pitRecompute s = .ok t) : Untaken s t := by
  obtain ⟨-, rfl⟩ := pitRecompute_ok h
  exact untaken_of_eq rfl rfl rfl rfl rfl

theorem untaken_clockUpdate {s t : State} (h : clockUpdate s = .ok t) : Untaken s t := by
  obtain ⟨-, rfl⟩ := pitRecompute_ok h
  exact untaken_of_eq rfl rfl rfl rfl rfl

theorem untaken_clockExec {d : Nat} {s t : State} (h : clockExec d s = .ok t) : Untaken s t := by
  obtain ⟨-, ⟨-, rfl⟩ | ⟨-, -, -, rfl⟩ | ⟨-, -, -, u, hu, rfl⟩⟩ := clockExec_ok h
  · exact .refl _
  · exact untaken_of_eq rfl rfl rfl rfl rfl
  · have hcount : Untaken s { s with pitCur := s.pitCur - d } := untaken_of_eq rfl rfl rfl rfl rfl
    exact (hcount.trans (untaken_of_reacted (raiseOnce_reacted hu))).trans (untaken_of_eq rfl rfl rfl rfl rfl)

theorem untaken_execAll {d : Nat} {s t : State} (h : execAll d s = .ok t) : Untaken s t := by
  unfold execAll at h
  split at h
  next => cases h
  next =>
    split at h
    next => cases h
    next u hu => exact (untaken_timerExec hu).trans (untaken_clockExec h)

/-! ### Writes by offset and by address (R87, R170 to R172) -/

theorem untaken_sideEffect {r : Region} {o : Nat} {g : Option Reg} {s t : State} (h : sideEffect r o g s = .ok t) :
    Untaken s t := by
  unfold sideEffect at h
  split at h
  next => exact untaken_portSetDir h
  next => exact untaken_portWriteTx h
  next => cases h; exact untaken_setPort ..
  next => split at h <;> cases h <;> exact untaken_of_eq rfl rfl rfl rfl rfl
  next => split at h <;> cases h <;> exact untaken_of_eq rfl rfl rfl rfl rfl
  next => exact untaken_clockUpdate h
  next => exact untaken_pitRecompute h
  next => exact untaken_pitRecompute h
  all_goals cases h; exact .refl _

theorem untaken_regionWrite8 {r : Region} {o : Nat} {v : Byte} {s t : State} (h : regionWrite8 r o v s = .ok t) :
    Untaken s t :=
  (untaken_storeByte ..).trans (untaken_sideEffect h)

theorem untaken_regionWrite16 {r : Region} {o : Nat} {v : Half} {s t : State} (h : regionWrite16 r o v s = .ok t) :
    Untaken s t := by
  have hstored := (untaken_storeByte r o (hiByte v) s).trans (untaken_storeByte r (o + 1) (loByte v) _)
  obtain ⟨-, heffect⟩ | ⟨-, u, hfirst, hsecond⟩ := regionWrite16_ok h
  · exact hstored.trans (untaken_sideEffect heffect)
  · exact (hstored.trans (untaken_sideEffect hfirst)).trans (untaken_sideEffect hsecond)

theorem untaken_busWrite8 {addr : Word} {v : Byte} {s t : State} (h : busWrite8 addr v s = .ok t) : Untaken s t := by
  unfold busWrite8 at h
  split at h
  next => cases h; exact .refl _
  next => exact untaken_regionWrite8 h

theorem untaken_busWrite16 {addr : Word} {v : Half} {s t : State} (h : busWrite16 addr v s = .ok t) : Untaken s t := by
  unfold busWrite16 at h
  split at h
  next => cases h; exact .refl _
  next =>
    split at h
    next => cases h
    next => exact untaken_regionWrite16 h

theorem untaken_busWrite32 {addr v : Word} {s t : State} (h : busWrite32 addr v s = .ok t) : Untaken s t := by
  unfold busWrite32 at h
  split at h
  next => cases h
  next u hu => exact (untaken_busWrite16 hu).trans (untaken_busWrite16 h)

/-! ### The outcomes -/

theorem untaken_setResult (s : State) (x : Result) : Untaken s (s.setResult x) := untaken_of_eq rfl rfl rfl rfl rfl

theorem untaken_answer {s t : State} {o : Except Refusal Result} (h : answer s o = .next t) : Untaken s t := by
  obtain ⟨x, -, rfl⟩ := answer_next.mp h
  exact untaken_setResult s x

theorem untaken_finish {s t : State} {o : Except Refusal State} (ho : ∀ u, o = .ok u → Untaken s u)
    (h : finish o = .next t) : Untaken s t := by
  obtain ⟨u, hu, rfl⟩ := finish_next.mp h
  exact (ho u hu).trans (untaken_setResult u .none)

section

variable {r : Region} {addr : Word} {s t : State}

theorem untaken_regionR8 (h : regionR8 r addr s = .next t) : Untaken s t := by
  unfold regionR8 at h
  split at h <;> cases h
  exact untaken_setResult ..

theorem untaken_regionR16 (h : regionR16 r addr s = .next t) : Untaken s t := by
  unfold regionR16 at h
  split_ifs at h
  next =>
    cases h
    exact untaken_setResult ..

theorem untaken_regionW8 {v : Byte} (h : regionW8 r addr v s = .next t) : Untaken s t := by
  unfold regionW8 at h
  split at h
  next => exact untaken_finish (fun _ => untaken_regionWrite8) h
  next => cases h

theorem untaken_regionW16 {v : Half} (h : regionW16 r addr v s = .next t) : Untaken s t := by
  unfold regionW16 at h
  split_ifs at h
  next => exact untaken_finish (fun _ => untaken_regionWrite16) h

theorem untaken_accessRegister {n : RegName} {acc : RegAccess} (h : accessRegister n acc s = .next t) :
    Untaken s t := by
  cases acc with
  | read8 lo => cases h; exact untaken_setResult ..
  | write8 lo v => exact untaken_finish (fun _ => untaken_busWrite8) h
  | read16 => exact untaken_answer h
  | write16 v => exact untaken_finish (fun _ => untaken_busWrite16) h

end

/-- Only the acknowledge, `RESET`, and a `STEP`, whose engine may acknowledge, are not covered. -/
theorem untaken_exec {i : Instr} {s t : State} (hack : ∀ lvl : Level, i ≠ .ack lvl) (hreset : i ≠ .sysReset)
    (hstep : i ≠ .sysStep) (h : exec i s = .next t) : Untaken s t := by
  cases i with
  | ack lvl => exact absurd rfl (hack lvl)
  | sysReset => exact absurd rfl hreset
  | sysStep => exact absurd rfl hstep
  | read16 | read32 | fetch16 | fetch32 => exact untaken_answer h
  | read8 | pRead | haspend | illegal | resethook | resetpc | resetsp | qExec | rgnInrangeT | rgnInrangeS
  | rgnInrangeQ =>
    cases h
    exact untaken_setResult ..
  | pWriterx | pEnable =>
    cases h
    exact (untaken_setPort ..).trans (untaken_setResult ..)
  | write8 => exact untaken_finish (fun _ => untaken_busWrite8) h
  | write16 => exact untaken_finish (fun _ => untaken_busWrite16) h
  | write32 => exact untaken_finish (fun _ => untaken_busWrite32) h
  | rgnR8T | rgnR8S | rgnR8Q => exact untaken_regionR8 h
  | rgnR16T | rgnR16S | rgnR16Q => exact untaken_regionR16 h
  | rgnW8T | rgnW8S | rgnW8Q => exact untaken_regionW8 h
  | rgnW16T | rgnW16S | rgnW16Q => exact untaken_regionW16 h
  | pSetdir => exact untaken_finish (fun _ => untaken_portSetDir) h
  | pWritetx => exact untaken_finish (fun _ => untaken_portWriteTx) h
  | inject => exact untaken_finish (fun _ hu => untaken_of_reacted (injectVector_ok hu).1) h
  | sysExec => exact untaken_finish (fun _ => untaken_execAll) h
  | tExec => exact untaken_finish (fun _ => untaken_timerExec) h
  | sExec => exact untaken_finish (fun _ => untaken_clockExec) h
  | ddrgp | portgp | tcnt | toc1 | toc2 | toc3 | toc4 | tmsk | tflg | syncr | porte0 | porte1 | ddre | pepar
  | portf0 | portf1 | ddrf | pfpar | picr | pitr => exact untaken_accessRegister h

/-! ### A step whose engine acknowledges nothing (R180) -/

theorem engineOutcome_eq_exec (op : EngineOp) (s : State) : engineOutcome op s = exec op.toInstr s := by
  cases op <;> rfl

theorem untaken_engineStep {op : EngineOp} {s t : State} (hack : ∀ lvl : Level, op ≠ .ack lvl)
    (h : engineStep op s = .next t) : Untaken s t := by
  unfold engineStep at h
  split at h
  next u hu =>
    cases h
    rw [engineOutcome_eq_exec] at hu
    have hexec : Untaken s u := by
      refine untaken_exec (fun lvl hi => ?_) (fun hi => ?_) (fun hi => ?_) hu
      · cases op <;> cases hi
        exact hack lvl rfl
      all_goals cases op <;> cases hi
    exact hexec.trans (untaken_of_eq rfl rfl rfl rfl rfl)
  next => cases h
  next => cases h

theorem untaken_engineSteps {ops : List EngineOp} {s t : State} (hack : ∀ op ∈ ops, ∀ lvl : Level, op ≠ .ack lvl)
    (h : engineSteps ops s = .next t) : Untaken s t := by
  induction ops generalizing s with
  | nil => cases h; exact .refl _
  | cons op ops ih =>
    obtain ⟨hop, hops⟩ := List.forall_mem_cons.mp hack
    unfold engineSteps at h
    split at h
    next u hu => exact (untaken_engineStep hop hu).trans (ih hops h)
    next => cases h
    next => cases h

theorem drawEngine_queue (s : State) : (drawEngine s).queue = s.queue := by
  unfold drawEngine
  split <;> rfl

theorem advanceCycles_queue (n : Nat) (s : State) : (advanceCycles n s).queue = s.queue := by
  unfold advanceCycles
  split <;> rfl

theorem queue_of_exec_sysStep {s t : State} (hack : ∀ op ∈ (engineAnswer s).ops, ∀ lvl : Level, op ≠ .ack lvl)
    (h : exec .sysStep s = .next t) (l : Level) : s.queue[l] <+: t.queue[l] := by
  change execSysStep s = .next t at h
  unfold execSysStep at h
  split at h
  next u hu =>
    calc s.queue[l]
      _ = (drawEngine s).queue[l] := by rw [drawEngine_queue]
      _ <+: u.queue[l] := (untaken_engineSteps hack hu).queue l
      _ = (advanceCycles (engineAnswer s).cycles u).queue[l] := by rw [advanceCycles_queue]
      _ <+: t.queue[l] := (untaken_finish (fun _ => untaken_execAll) h).queue l
  next => cases h
  next => cases h

/-! ### The obligation -/

/-- Settles O13: `Untaken` covers the other operations, and a `STEP` is a run of them; an acknowledge is an update of one
queue and then reactions (`ackLevel_reacted`); `RESET` empties all queues. -/
theorem pendingVectorsLeaveOnlyByAcknowledge : Obligations.PendingVectorsLeaveOnlyByAcknowledge := by
  intro i s t h
  refine ⟨fun hack hreset hengine l => ?_, ?_, ?_⟩
  · by_cases hstep : i = .sysStep
    · exact queue_of_exec_sysStep (hengine hstep) (hstep ▸ h) l
    · exact (untaken_exec hack hreset hstep h).queue l
  · rintro lvl rfl
    obtain ⟨v, u, hu, rfl⟩ := exec_ack_next.mp h
    cases hv : s.queue[lvl] with
    | nil =>
      rw [ackLevel_empty hv] at hu
      cases hu
      exact ⟨by simp, fun l _ => List.prefix_rfl, fun hne => absurd rfl hne⟩
    | cons vec rest =>
      obtain ⟨hfront, hothers⟩ := ackLevel_queue hv hu
      exact ⟨hfront, hothers, fun _ => (ackLevel_reacted hv hu).out⟩
  · rintro rfl l
    cases h
    fin_cases l <;> rfl

end Sys2Proof.InterruptArbiter

namespace Sys2Proof.BusDispatch

/-! PROOFS. The bus (`45_dispatch.md` R165 to R178): what masking and routing make of an address, what each bus operation
answers by the place of its address, and that a write does not see the result of the operation before it, so that the two
halves of a 32-bit write are two operations. -/

open Sys2Proof Sys2Proof.Machine Sys2Proof.RegionAccess Sys2Proof.NamedRegisters

/-! ### Masking and routing (R165, R166) -/

theorem busMask_eq (addr : Word) : busMask addr = addr.toNat % 2 ^ 20 := by simp [busMask]

theorem secondHalf_toNat (addr : Word) : (secondHalf addr).toNat = (addr.toNat + 2) % 2 ^ 32 := BitVec.toNat_add ..

theorem busMask_secondHalf (addr : Word) : busMask (secondHalf addr) = (addr.toNat + 2) % 2 ^ 20 := by
  rw [busMask_eq, secondHalf_toNat]; omega

/-- The mask is even, so it keeps the parity of an address. -/
theorem busMask_mod_two (addr : Word) : busMask addr % 2 = addr.toNat % 2 := by rw [busMask_eq]; omega

theorem secondHalf_mod_two (addr : Word) : (secondHalf addr).toNat % 2 = addr.toNat % 2 := by
  rw [secondHalf_toNat]; omega

theorem route_of_unclaimed {c : Cfg} {a : Nat} (h : ∀ r : Region, ¬ Claims c r a) : route c a = none := by
  have hout (r : Region) : ¬ inRange c r a = true := mt inRange_iff.mp (h r)
  rw [route, if_neg (hout .timer), if_neg (hout .sys), if_neg (hout .serial)]

/-- P5: a window starts and ends at even addresses, so a claimed even byte's word lies inside. -/
theorem claims_succ {c : Cfg} (hc : c.WF) {r : Region} {a : Nat} (heven : a % 2 = 0) (h : Claims c r a) :
    Claims c r (a + 1) := by
  obtain ⟨⟨hT, hS, hQ, -⟩, -⟩ := hc
  obtain ⟨hlo, hhi⟩ := h
  cases r <;> simp only [Claims, regionBase, regionSize] at * <;> omega

/-! ### Accesses at an unclaimed address (R175) -/

section

variable {s : State} {addr : Word} (h : ∀ r : Region, ¬ Claims s.cfg r (busMask addr))

include h

theorem busRead8_unclaimed : busRead8 addr s = 0 := by rw [busRead8, route_of_unclaimed h]

theorem busRead16_unclaimed : busRead16 addr s = .ok 0 := by rw [busRead16, route_of_unclaimed h]

theorem busWrite8_unclaimed (v : Byte) : busWrite8 addr v s = .ok s := by rw [busWrite8, route_of_unclaimed h]

theorem busWrite16_unclaimed (v : Half) : busWrite16 addr v s = .ok s := by rw [busWrite16, route_of_unclaimed h]

end

/-! ### Accesses in a window (R167, R168, R170, R171, R176) -/

section

variable {s : State} (hc : s.cfg.WF) {addr : Word} {r : Region} (h : Claims s.cfg r (busMask addr))

include hc h

theorem busRead8_of_claims : busRead8 addr s = laneRead r (busMask addr - regionBase s.cfg r) s := by
  simp only [busRead8, route_of_claims hc h, offsetIn]

theorem busWrite8_of_claims (v : Byte) :
    busWrite8 addr v s = regionWrite8 r (busMask addr - regionBase s.cfg r) v s := by
  simp only [busWrite8, route_of_claims hc h, offsetIn]

theorem busRead16_of_odd (hodd : busMask addr % 2 = 1) : busRead16 addr s = .error .misaligned := by
  simp only [busRead16, route_of_claims hc h, if_pos hodd]

theorem busWrite16_of_odd (hodd : busMask addr % 2 = 1) (v : Half) : busWrite16 addr v s = .error .misaligned := by
  simp only [busWrite16, route_of_claims hc h, if_pos hodd]

theorem busRead16_of_claims (heven : busMask addr % 2 = 0) :
    busRead16 addr s = .ok (regionRead16 r (busMask addr - regionBase s.cfg r) s) := by
  simp [busRead16, route_of_claims hc h, heven, offsetIn]

theorem busWrite16_of_claims (heven : busMask addr % 2 = 0) (v : Half) :
    busWrite16 addr v s = regionWrite16 r (busMask addr - regionBase s.cfg r) v s := by
  simp [busWrite16, route_of_claims hc h, heven, offsetIn]

end

/-- At an even address a 16-bit read answers, wherever it lies and whatever the configuration. -/
theorem busRead16_even {addr : Word} (heven : addr.toNat % 2 = 0) (s : State) : ∃ v, busRead16 addr s = .ok v := by
  unfold busRead16
  split
  next => exact ⟨_, rfl⟩
  next => rw [busMask_mod_two, if_neg (by omega)]; exact ⟨_, rfl⟩

/-! ### The two halves of a 32-bit access (R169, R172) -/

theorem busRead32_of_error {addr : Word} {s : State} {e : Refusal} (h : busRead16 addr s = .error e) :
    busRead32 addr s = .error e := by
  rw [busRead32, h]

theorem busRead32_of_ok_error {addr : Word} {s : State} {hi : Half} {e : Refusal} (h : busRead16 addr s = .ok hi)
    (h2 : busRead16 (secondHalf addr) s = .error e) : busRead32 addr s = .error e := by
  simp only [busRead32, h, h2]

theorem busRead32_of_ok {addr : Word} {s : State} {hi lo : Half} (h : busRead16 addr s = .ok hi)
    (h2 : busRead16 (secondHalf addr) s = .ok lo) : busRead32 addr s = .ok (hi ++ lo) := by
  simp only [busRead32, h, h2, joinHalves]

theorem busWrite32_of_error {addr v : Word} {s : State} {e : Refusal} (h : busWrite16 addr (hiHalf v) s = .error e) :
    busWrite32 addr v s = .error e := by
  rw [busWrite32, h]

theorem busWrite32_of_ok {addr v : Word} {s t : State} (h : busWrite16 addr (hiHalf v) s = .ok t) :
    busWrite32 addr v s = busWrite16 (secondHalf addr) (loHalf v) t := by
  rw [busWrite32, h]

section

variable {s : State} (hc : s.cfg.WF) {addr : Word} (hodd : addr.toNat % 2 = 1) {r : Region}
  (h : Claims s.cfg r (busMask addr) ∨ Claims s.cfg r (busMask (secondHalf addr)))

include hc hodd h

/-- Of two odd halves the first claimed one refuses; one that is not claimed answers. -/
theorem busRead32_of_odd : busRead32 addr s = .error .misaligned := by
  by_cases hfirst : ∃ r1, Claims s.cfg r1 (busMask addr)
  · obtain ⟨r1, hr1⟩ := hfirst
    exact busRead32_of_error (busRead16_of_odd hc hr1 (by rw [busMask_mod_two, hodd]))
  · have hnone := not_exists.mp hfirst
    have hsecond := h.resolve_left (hnone r)
    exact busRead32_of_ok_error (busRead16_unclaimed hnone)
      (busRead16_of_odd hc hsecond (by rw [busMask_mod_two, secondHalf_mod_two, hodd]))

theorem busWrite32_of_odd (v : Word) : busWrite32 addr v s = .error .misaligned := by
  by_cases hfirst : ∃ r1, Claims s.cfg r1 (busMask addr)
  · obtain ⟨r1, hr1⟩ := hfirst
    exact busWrite32_of_error (busWrite16_of_odd hc hr1 (by rw [busMask_mod_two, hodd]) _)
  · have hnone := not_exists.mp hfirst
    have hsecond := h.resolve_left (hnone r)
    rw [busWrite32_of_ok (busWrite16_unclaimed hnone _)]
    exact busWrite16_of_odd hc hsecond (by rw [busMask_mod_two, secondHalf_mod_two, hodd]) _

end

/-! ### What a write makes of the last result

No operation reads the result of the one before it: with another one in place it does the same and leaves that one. The
rules below move `setResult` outwards, through the updates of the state first, then through whatever can emit an event. -/

@[simp] theorem setResult_setStor (s : State) (x : Result) (r : Region) (m : List Host.Cell) :
    (s.setResult x).setStor r m = (s.setStor r m).setResult x := by cases r <;> rfl

@[simp] theorem setResult_setPort (s : State) (x : Result) (p : Port) (q : PortState) :
    (s.setResult x).setPort p q = (s.setPort p q).setResult x := by cases p <;> rfl

@[simp] theorem setResult_setHook (s : State) (x : Result) (p : Port) (k : Hook) :
    (s.setResult x).setHook p k = (s.setHook p k).setResult x := by cases p <;> rfl

@[simp] theorem setResult_setQueue (s : State) (x : Result) (l : Level) (q : List Byte) :
    (s.setResult x).setQueue l q = (s.setQueue l q).setResult x := rfl

@[simp] theorem setResult_setIrq (s : State) (x : Result) (l : Level) :
    (s.setResult x).setIrq l = (s.setIrq l).setResult x := rfl

@[simp] theorem setResult_log (s : State) (x : Result) (e : Event) :
    (s.setResult x).log e = (s.log e).setResult x := rfl

theorem storeByte_setResult (r : Region) (o : Nat) (b : Byte) (s : State) (x : Result) :
    storeByte r o b (s.setResult x) = (storeByte r o b s).setResult x := by
  unfold storeByte State.setByte
  rw [setResult_cfg, setResult_stor, setResult_setStor]
  split <;> rfl

theorem bumpWriteCounter_setResult (p : Port) (s : State) (x : Result) :
    bumpWriteCounter p (s.setResult x) = (bumpWriteCounter p s).setResult x := by
  unfold bumpWriteCounter
  simp only [setResult_port, setResult_setPort, setResult_freeCount]
  split <;> rfl

/-- An operation that does the same with another last result in place, and leaves that one. -/
def ResultBlind (f : State → Except Refusal State) : Prop :=
  ∀ (s : State) (x : Result), f (s.setResult x) = (f s).map (·.setResult x)

/-- One operation after another. -/
theorem ResultBlind.bind {f g : State → Except Refusal State} (hf : ResultBlind f) (hg : ResultBlind g) :
    ResultBlind fun s => match f s with
      | .error e => .error e
      | .ok t => g t := by
  intro s x
  simp only [hf s x]
  cases f s with
  | error e => rfl
  | ok t => exact hg t x

theorem react_blind {em : Event → State → Except Refusal State} (hem : ∀ e, ResultBlind (em e)) (a : Reaction) :
    ResultBlind (react em · a) := by
  intro s x
  cases a with
  | writeRx p b => simp [react, portWriteRx, Except.map]
  | inject vec lvl => simp [react, injectWith, rescanWith, hem _ _ x]
  | replaceHook p k => simp [react, Except.map]
  | step | exec | reset => rfl

theorem reactAll_blind {em : Event → State → Except Refusal State} (hem : ∀ e, ResultBlind (em e))
    (rs : List Reaction) : ResultBlind (reactAll em rs) := by
  induction rs with
  | nil => intro s x; rfl
  | cons a rs ih => exact (react_blind hem a).bind ih

theorem emitWithin_blind (n : Nat) (e : Event) : ResultBlind (emitWithin n e) := by
  induction n generalizing e with
  | zero => intro s x; rfl
  | succ n ih =>
    intro s x
    rw [emitWithin, emitWithin, setResult_reactions]
    cases s.reactions with
    | nil => rfl
    | cons rs later => exact reactAll_blind ih rs ({ s with reactions := later }.log e) x

theorem emit_blind (e : Event) : ResultBlind (emit e) := fun s x => emitWithin_blind s.reactions.length e s x

theorem portSetDir_blind (p : Port) (m : Byte) : ResultBlind (portSetDir p m) := by
  intro s x
  rw [portSetDir, setResult_port, setResult_setPort, emit_blind, portSetDir]

theorem portWriteTx_blind (p : Port) (b : Byte) : ResultBlind (portWriteTx p b) := by
  intro s x
  simp only [portWriteTx, setResult_port, setResult_setPort, bumpWriteCounter_setResult]
  exact emit_blind _ _ x

theorem pitRecompute_blind : ResultBlind pitRecompute := by
  intro s x
  have hload : pitLoadNow (s.setResult x) = pitLoadNow s := rfl
  unfold pitRecompute
  rw [hload]
  split <;> rfl

theorem clockUpdate_blind : ResultBlind clockUpdate := fun s x =>
  pitRecompute_blind { s with sysclk := clockOf s.cfg (s.reg16 .sys s.cfg.sSyncr) } x

theorem sideEffect_blind (r : Region) (o : Nat) (g : Option Reg) : ResultBlind (sideEffect r o g) := by
  intro s x
  unfold sideEffect
  simp only [setResult_byteAt, setResult_cfg]
  split
  next p => exact portSetDir_blind p _ s x
  next p => exact portWriteTx_blind p _ s x
  next p => simp [portEnable, Except.map]
  next k => split <;> rfl
  next => split <;> rfl
  next => exact clockUpdate_blind s x
  next => exact pitRecompute_blind s x
  next => exact pitRecompute_blind s x
  all_goals rfl

theorem regionWrite16_blind (r : Region) (o : Nat) (v : Half) : ResultBlind (regionWrite16 r o v) := by
  intro s x
  simp only [regionWrite16, storeByte_setResult, setResult_cfg]
  split
  next => exact sideEffect_blind r o _ _ x
  next => exact (sideEffect_blind r o _).bind (sideEffect_blind r (o + 1) _) _ x

theorem busWrite16_blind (addr : Word) (v : Half) : ResultBlind (busWrite16 addr v) := by
  intro s x
  unfold busWrite16
  rw [setResult_cfg]
  split
  next => rfl
  next r _ =>
    split
    next => rfl
    next => exact regionWrite16_blind r _ v s x

theorem finish_map_setResult (o : Except Refusal State) (x : Result) : finish (o.map (·.setResult x)) = finish o := by
  cases o <;> rfl

/-! ### The outcomes -/

section

variable (addr : Word) (s : State)

theorem exec_read8 : exec (.read8 addr) s = .next (s.setResult (.byte (busRead8 addr s))) := rfl
theorem exec_read16 : exec (.read16 addr) s = answer s ((busRead16 addr s).map .half) := rfl
theorem exec_read32 : exec (.read32 addr) s = answer s ((busRead32 addr s).map .word) := rfl
theorem exec_fetch16 : exec (.fetch16 addr) s = exec (.read16 addr) s := rfl
theorem exec_fetch32 : exec (.fetch32 addr) s = exec (.read32 addr) s := rfl
theorem exec_write8 (v : Byte) : exec (.write8 addr v) s = finish (busWrite8 addr v s) := rfl
theorem exec_write16 (v : Half) : exec (.write16 addr v) s = finish (busWrite16 addr v s) := rfl
theorem exec_write32 (v : Word) : exec (.write32 addr v) s = finish (busWrite32 addr v s) := rfl

end

theorem setResult_inj {s : State} {x y : Result} : s.setResult x = s.setResult y ↔ x = y :=
  ⟨fun h => congrArg State.result h, fun h => h ▸ rfl⟩

section

variable {addr : Word} {s : State}

theorem exec_read16_eq_next {v : Half} :
    exec (.read16 addr) s = .next (s.setResult (.half v)) ↔ busRead16 addr s = .ok v := by
  rw [exec_read16]
  cases busRead16 addr s <;> simp [Except.map, setResult_inj]

theorem exec_read16_eq_refused {e : Refusal} : exec (.read16 addr) s = .refused e ↔ busRead16 addr s = .error e := by
  rw [exec_read16]
  cases busRead16 addr s <;> simp [Except.map]

theorem exec_read32_eq_next {v : Word} :
    exec (.read32 addr) s = .next (s.setResult (.word v)) ↔ busRead32 addr s = .ok v := by
  rw [exec_read32]
  cases busRead32 addr s <;> simp [Except.map, setResult_inj]

theorem exec_read32_eq_refused {e : Refusal} : exec (.read32 addr) s = .refused e ↔ busRead32 addr s = .error e := by
  rw [exec_read32]
  cases busRead32 addr s <;> simp [Except.map]

end

/-- R172: the first half's answer, whose result is empty, is a state the second half starts from. -/
theorem exec_write32_eq_andThen (addr v : Word) (s : State) : exec (.write32 addr v) s =
    andThen (exec (.write16 addr (hiHalf v)) s) (exec (.write16 (secondHalf addr) (loHalf v))) := by
  rw [exec_write32, exec_write16]
  cases hfirst : busWrite16 addr (hiHalf v) s with
  | error e => rw [busWrite32_of_error hfirst]; rfl
  | ok t =>
    calc finish (busWrite32 addr v s)
      _ = finish (busWrite16 (secondHalf addr) (loHalf v) t) := by rw [busWrite32_of_ok hfirst]
      _ = finish (busWrite16 (secondHalf addr) (loHalf v) (t.setResult .none)) := by
        rw [busWrite16_blind, finish_map_setResult]

/-! ### The obligations -/

/-- Settles O28: routing decides between the region's lanes and zero. -/
theorem busReadsReachTheLanes : Obligations.BusReadsReachTheLanes := by
  intro s addr a hc ha
  obtain rfl : a = busMask addr := ha.trans (busMask_eq addr).symm
  refine ⟨hasWord_iff.mpr rfl, hasWord_iff.mpr rfl, fun r h => ⟨?_, fun heven => ?_, fun hodd => ?_⟩, fun h => ⟨?_, ?_⟩⟩
  · rw [exec_read8, busRead8_of_claims hc h]
  · exact exec_read16_eq_next.mpr (busRead16_of_claims hc h heven)
  · exact exec_read16_eq_refused.mpr (busRead16_of_odd hc h hodd)
  · rw [exec_read8, busRead8_unclaimed h]
  · exact exec_read16_eq_next.mpr (busRead16_unclaimed h)

/-- Settles O29: a 32-bit read is its halves' answers joined, a 32-bit write its halves in sequence. -/
theorem longAccessIsTwoWordAccesses : Obligations.LongAccessIsTwoWordAccesses := by
  intro s addr
  refine ⟨hasWord_iff.mpr rfl, fun v => hasWord_iff.mpr rfl, fun v => exec_write32_eq_andThen addr v s,
    fun hi lo hhi hlo => ?_, fun e he => ?_, fun hi e hhi he => ?_, fun heven => ?_⟩
  · exact exec_read32_eq_next.mpr (busRead32_of_ok (exec_read16_eq_next.mp hhi) (exec_read16_eq_next.mp hlo))
  · exact exec_read32_eq_refused.mpr (busRead32_of_error (exec_read16_eq_refused.mp he))
  · exact exec_read32_eq_refused.mpr (busRead32_of_ok_error (exec_read16_eq_next.mp hhi) (exec_read16_eq_refused.mp he))
  · obtain ⟨hi, hhi⟩ := busRead16_even heven s
    obtain ⟨lo, hlo⟩ := busRead16_even (addr := secondHalf addr) (by rw [secondHalf_mod_two, heven]) s
    exact ⟨hi, lo, exec_read16_eq_next.mpr hhi, exec_read16_eq_next.mpr hlo,
      exec_read32_eq_next.mpr (busRead32_of_ok hhi hlo)⟩

/-- Settles O30: no device of the core tells a fetch from a read, and reads answer at even addresses (R169). -/
theorem fetchIsRead : Obligations.FetchIsRead := by
  intro addr s
  refine ⟨hasWord_iff.mpr rfl, hasWord_iff.mpr rfl, exec_fetch16 addr s, exec_fetch32 addr s, fun heven => ?_⟩
  obtain ⟨-, -, -, -, -, -, hreads⟩ := longAccessIsTwoWordAccesses s addr
  obtain ⟨hi, lo, hread16, -, hread32⟩ := hreads heven
  exact ⟨⟨hi, hread16, hread16⟩, hi ++ lo, hread32, hread32⟩

/-- Settles O31: nothing is routed, so a read is zero and a write leaves the state. -/
theorem unclaimedReadsZeroDropsWrites : Obligations.UnclaimedReadsZeroDropsWrites := by
  intro s addr h
  rw [← busMask_eq] at h
  have hread16 : exec (.read16 addr) s = .next (s.setResult (.half 0)) :=
    exec_read16_eq_next.mpr (busRead16_unclaimed h)
  refine ⟨?_, hread16, hread16, fun v => ?_, fun v => ?_, fun h2 => ?_⟩
  · rw [exec_read8, busRead8_unclaimed h]
  · rw [exec_write8, busWrite8_unclaimed h, finish_ok]
  · rw [exec_write16, busWrite16_unclaimed h, finish_ok]
  · rw [← busMask_secondHalf] at h2
    have hread32 : exec (.read32 addr) s = .next (s.setResult (.word 0)) :=
      exec_read32_eq_next.mpr (busRead32_of_ok (busRead16_unclaimed h) (busRead16_unclaimed h2))
    refine ⟨hread32, hread32, fun v => ?_⟩
    rw [exec_write32, busWrite32_of_ok (busWrite16_unclaimed h _), busWrite16_unclaimed h2, finish_ok]

/-- Settles O32: masking keeps an address odd, and a claimed half at an odd address is refused. -/
theorem oddClaimedWordsAreRefused : Obligations.OddClaimedWordsAreRefused := by
  intro s addr hc
  refine ⟨fun r h hodd => ?_, fun r h hodd => ?_⟩
  · rw [← busMask_eq] at h
    have hmask : busMask addr % 2 = 1 := by rw [busMask_mod_two, hodd]
    have hread16 : exec (.read16 addr) s = .refused .misaligned :=
      exec_read16_eq_refused.mpr (busRead16_of_odd hc h hmask)
    refine ⟨hread16, hread16, fun v => ?_⟩
    rw [exec_write16, busWrite16_of_odd hc h hmask, finish_error]
  · rw [← busMask_eq, ← busMask_secondHalf] at h
    have hread32 : exec (.read32 addr) s = .refused .misaligned :=
      exec_read32_eq_refused.mpr (busRead32_of_odd hc hodd h)
    refine ⟨hread32, hread32, fun v => ?_⟩
    rw [exec_write32, busWrite32_of_odd hc hodd h, finish_error]

/-- Settles O34: both sides are the same access to the lanes; a 16-bit one at an even address stays in its window, one at
an odd address is refused on both sides. -/
theorem busAccessIsRegionAccess : Obligations.BusAccessIsRegionAccess := by
  rintro s addr m r hc rfl h
  have hm : (BitVec.ofNat 32 (addr.toNat % 2 ^ 20)).toNat = busMask addr := by
    rw [busMask_eq, BitVec.toNat_ofNat]; omega
  generalize BitVec.ofNat 32 (addr.toNat % 2 ^ 20) = m at h hm ⊢
  have hbus : Claims s.cfg r (busMask addr) := hm ▸ h
  have h16 : exec (.read16 addr) s = exec (r16Of r m) s ∧
      ∀ v : Half, exec (.write16 addr v) s = exec (w16Of r m v) s := by
    obtain heven | hodd := Nat.mod_two_eq_zero_or_one m.toNat
    · have hin := And.intro h (claims_succ hc heven h)
      refine ⟨?_, fun v => ?_⟩
      · rw [exec_r16Of_of_claims heven hin, hm]
        exact exec_read16_eq_next.mpr (busRead16_of_claims hc hbus (hm ▸ heven))
      · rw [exec_w16Of_of_claims heven hin, hm, exec_write16, busWrite16_of_claims hc hbus (hm ▸ heven)]
    · refine ⟨?_, fun v => ?_⟩
      · rw [exec_r16Of_of_odd hodd]
        exact exec_read16_eq_refused.mpr (busRead16_of_odd hc hbus (hm ▸ hodd))
      · rw [exec_w16Of_of_odd hodd, exec_write16, busWrite16_of_odd hc hbus (hm ▸ hodd), finish_error]
  obtain ⟨hread16, hwrite16⟩ := h16
  refine ⟨?_, hread16, hread16, fun v => ?_, hwrite16⟩
  · rw [exec_r8Of_of_claims h, hm, exec_read8, busRead8_of_claims hc hbus]
  · rw [exec_w8Of_of_claims h, hm, exec_write8, busWrite8_of_claims hc hbus]

end Sys2Proof.BusDispatch

namespace Sys2Proof.Integration

/-! PROOFS. The system operations (`46_integration.md` R181 to R186, R194): the order of the exec steps, where they
complete and what they leave with listeners at work, what `RESET` gives, and what no other operation undoes. -/

open Sys2Proof Sys2Proof.Machine Sys2Proof.RegionAccess Sys2Proof.TimerExec Sys2Proof.InterruptArbiter
  Sys2Proof.BusDispatch

/-! ### The hooks (R183 to R186) -/

theorem halfOperand_halfWord (v : Half) (f : Half → Instr) : halfOperand (halfWord v) f = .ok (f v) := by
  have hv : halfWord v = (0 : Half) ++ v := by simp [halfWord, BitVec.setWidth_eq_append]
  rw [halfOperand, hv, extract_append_high, if_pos rfl, extract_append_low]

/-- Settles O58: the words are rows of R61, and each answer is the last result of an unchanged state. -/
theorem hooksAnswerWithoutChangingState : Obligations.HooksAnswerWithoutChangingState := by
  intro s op
  exact ⟨⟨hasWord_iff.mpr (halfOperand_halfWord op .illegal), hasWord_iff.mpr rfl, hasWord_iff.mpr rfl,
    hasWord_iff.mpr rfl⟩, rfl, rfl, rfl, rfl⟩

/-! ### `EXEC` as a sequence (R181, R194)

The clock/system module's step starts from the state the timer's step leaves, its empty result included. -/

/-- A choice that does not read the last result. -/
theorem blind_ite {c : State → Prop} [DecidablePred c] {f g : State → Except Refusal State}
    (hc : ∀ s x, c (s.setResult x) ↔ c s) (hf : ResultBlind f) (hg : ResultBlind g) :
    ResultBlind fun s => if c s then f s else g s := by
  intro s x
  simp only [hc]
  split
  · exact hf s x
  · exact hg s x

theorem injectVector_blind (vec : Byte) (lvl : Level) : ResultBlind (injectVector vec lvl) := by
  intro s x
  simp only [injectVector, injectWith, rescanWith, setResult_queue, setResult_setQueue, setResult_setIrq]
  exact emit_blind _ _ x

theorem raiseOnce_blind (vec : Byte) (lvl : Level) : ResultBlind (raiseOnce vec lvl) :=
  blind_ite (fun _ _ => .rfl) (fun _ _ => rfl) (injectVector_blind vec lvl)

theorem raisePit_blind : ResultBlind raisePit := by
  intro s x
  simp only [raisePit, setResult_reg16, setResult_cfg]
  exact raiseOnce_blind _ _ s x

/-- The step chooses by the operand and the count; firing is the vector, and then the reload of the count. -/
theorem clockExec_blind (d : Nat) : ResultBlind (clockExec d) := by
  have hfire := raisePit_blind.bind (g := fun u => .ok { u with pitCur := u.pitCur + u.pitLoad }) fun _ _ => rfl
  exact blind_ite (fun _ _ => .rfl) (fun _ _ => rfl) <|
    blind_ite (fun _ _ => .rfl) (fun _ _ => rfl) <|
    blind_ite (fun _ _ => .rfl) (fun _ _ => rfl) <|
    blind_ite (fun _ _ => .rfl) (fun _ _ => rfl)
      fun s x => hfire { s with pitCur := s.pitCur - d } x

theorem exec_qExec (delta : Word) (s : State) : exec (.qExec delta) s = .next (s.setResult .none) := rfl

theorem exec_sysExec_of_ge {delta : Word} (h : 2 ^ 31 ≤ delta.toNat) (s : State) :
    exec (.sysExec delta) s = .refused .i32Range := by
  change finish (execAll delta.toNat s) = _
  rw [execAll, if_pos h, finish_error]

theorem exec_sysExec_eq_andThen {delta : Word} (h : delta.toNat < 2 ^ 31) (s : State) :
    exec (.sysExec delta) s = andThen (exec (.tExec delta) s) (exec (.sExec delta)) := by
  change finish (execAll delta.toNat s) = andThen (finish (timerExec delta.toNat s)) _
  rw [execAll, if_neg (by omega)]
  cases timerExec delta.toNat s with
  | error e => rfl
  | ok u =>
    calc finish (clockExec delta.toNat u)
      _ = finish (clockExec delta.toNat (u.setResult .none)) := by rw [clockExec_blind, finish_map_setResult]
      _ = exec (.sExec delta) (u.setResult .none) := rfl

/-- Nothing is left for the serial module's step to do: the result is empty already. -/
theorem andThen_finish_qExec (delta : Word) (o : Except Refusal State) :
    andThen (finish o) (execList [.qExec delta]) = finish o := by
  cases o <;> rfl

theorem execList_exec_steps (delta : Word) (s : State) : execList [.tExec delta, .sExec delta, .qExec delta] s =
    andThen (exec (.tExec delta) s) (exec (.sExec delta)) :=
  congrArg (andThen (exec (.tExec delta) s)) (funext fun _ => andThen_finish_qExec delta _)

/-! ### Where the exec steps complete (R123, R135)

With listeners that do no more than R54 allows. -/

theorem finishChannel_reacted {k : Channel} {s t : State} (h : finishChannel k s = .ok t) :
    Reacted (if s.due k then s.setFlag k else s) t := by
  obtain ⟨hdue, rfl⟩ | ⟨hdue, -, rfl⟩ | ⟨hdue, -, hraise⟩ := finishChannel_ok h <;> rw [hdue]
  · exact .refl _
  · exact .refl _
  · exact raiseOnce_reacted hraise

/-- One channel's part of the exec step: it advances, then the listeners act. -/
theorem execChannel_reacted {d : Nat} {k : Channel} {s t : State} (h : execChannel d k s = .ok t) :
    Reacted (advance d k s) t :=
  finishChannel_reacted (execChannel_ok h).2

theorem advance_orderly {s : State} (hs : s.orderly) (d : Nat) (k : Channel) : (advance d k s).orderly := by
  obtain ⟨m, h⟩ := advance_frame d k s
  rw [h]
  exact hs

theorem finishChannel_completes {s : State} (hs : s.orderly) (k : Channel) : ∃ t, finishChannel k s = .ok t := by
  obtain ⟨m, hm⟩ := setFlag_frame s k
  have hset : (s.setFlag k).orderly := by rw [hm]; exact hs
  unfold finishChannel
  split_ifs
  · exact raiseOnce_completes hset _ _
  · exact ⟨_, rfl⟩
  · exact ⟨_, rfl⟩

theorem execChannel_completes {d : Nat} {k : Channel} {s : State} (hs : s.orderly) (hle : s.acc[k] + d ≤ i32Max) :
    ∃ t, execChannel d k s = .ok t := by
  rw [execChannel, if_neg (by omega)]
  exact finishChannel_completes (s := s.setAcc k _) hs k

theorem execChannels_completes {d : Nat} {ks : List Channel} (hks : ks.Nodup) {s : State} (hs : s.orderly)
    (hle : ∀ k ∈ ks, s.acc[k] + d ≤ i32Max) : ∃ t, execChannels d ks s = .ok t := by
  induction ks generalizing s with
  | nil => exact ⟨s, rfl⟩
  | cons k ks ih =>
    obtain ⟨hk, hks⟩ := List.nodup_cons.mp hks
    obtain ⟨hlek, hle⟩ := List.forall_mem_cons.mp hle
    obtain ⟨u, hu⟩ := execChannel_completes hs hlek
    have hr := execChannel_reacted hu
    have hacc (j : Channel) (hj : j ∈ ks) : u.acc[j] = s.acc[j] := by
      rw [hr.acc, advance_acc, if_neg fun he : j = k => hk (he ▸ hj)]
    rw [execChannels, hu]
    exact ih hks (hr.orderly (advance_orderly hs d k)) fun j hj => by rw [hacc j hj]; exact hle j hj

theorem injectChannels_reacted {ks : List Channel} {s t : State} (h : injectChannels ks s = .ok t) : Reacted s t := by
  induction ks generalizing s with
  | nil => cases h; exact .refl _
  | cons k ks ih =>
    rw [injectChannels] at h
    split at h
    next => cases h
    next u hu => exact (injectVector_ok hu).1.trans (ih h)

theorem injectChannels_completes {s : State} (hs : s.orderly) (ks : List Channel) :
    ∃ t, injectChannels ks s = .ok t := by
  induction ks generalizing s with
  | nil => exact ⟨s, rfl⟩
  | cons k ks ih =>
    obtain ⟨u, hu⟩ := injectVector_completes hs (s.cfg.tVecBase + BitVec.ofNat 8 k.val) s.cfg.tLevel
    rw [injectChannels, hu]
    exact ih ((injectVector_ok hu).1.orderly hs)

/-- The legacy variant's step: vectors or none, whatever the listeners do, then the counter's value is kept (R122). -/
theorem legacyExec_ok {s t : State} (h : legacyExec s = .ok t) :
    ∃ u, Reacted s u ∧ t = { u with prevTcnt := tcntValue s } := by
  unfold legacyExec at h
  split at h
  next => cases h
  next u hu =>
    cases h
    refine ⟨u, ?_, rfl⟩
    split at hu
    next => exact injectChannels_reacted hu
    next => cases hu; exact .refl _

theorem legacyExec_completes {s : State} (hs : s.orderly) : ∃ t, legacyExec s = .ok t := by
  unfold legacyExec
  split_ifs
  next =>
    obtain ⟨u, hu⟩ := injectChannels_completes hs [0, 1, 2, 3]
    exact ⟨_, by rw [hu]⟩
  next => exact ⟨_, rfl⟩

theorem timerExec_completes {d : Nat} (hlt : d < 2 ^ 31) {s : State} (hs : s.orderly)
    (hle : ∀ k ∈ activeChannels s.cfg.activeOc, s.acc[k] + d ≤ i32Max) : ∃ t, timerExec d s = .ok t := by
  rw [timerExec, if_neg (by omega)]
  cases s.cfg.variant with
  | multichannel => exact execChannels_completes (activeChannels_nodup _) hs hle
  | legacy => exact legacyExec_completes hs

theorem raisePit_completes {s : State} (hs : s.orderly) : ∃ t, raisePit s = .ok t := by
  unfold raisePit
  exact raiseOnce_completes hs _ _

theorem clockExec_completes {d : Nat} (hlt : d < 2 ^ 31) {s : State} (hs : s.orderly) (hrange : i32Min ≤ s.pitCur - d) :
    ∃ t, clockExec d s = .ok t := by
  unfold clockExec
  rw [if_neg (by omega), if_neg (c := s.pitCur - d < i32Min) (by omega)]
  split_ifs
  next => exact ⟨_, rfl⟩
  next => exact ⟨_, rfl⟩
  next =>
    obtain ⟨u, hu⟩ := raisePit_completes (s := { s with pitCur := s.pitCur - d }) hs
    exact ⟨_, by rw [hu]⟩

/-! ### What the exec steps leave, listeners and all -/

/-- `s` with another storage of the timer's region, other accumulators and another last counter value. -/
def retimed (m : List Host.Cell) (a : Vector Int 4) (n : Half) (s : State) : State :=
  { s with storT := m, acc := a, prevTcnt := n }

theorem reacted_retimed {s t : State} (h : Reacted s t) (m : List Host.Cell) (a : Vector Int 4) (n : Half) :
    Reacted (retimed m a n s) (retimed m a n t) :=
  { h with
    stor := fun r => by cases r; exacts [rfl, h.stor .sys, h.stor .serial]
    acc := rfl
    prevTcnt := rfl }

/-- All that the timer's exec step does: of the storages to the flag register alone, and beyond the timer's own state no
more than listeners do. -/
structure TimerStepped (s t : State) : Prop where
  reacted : ∃ m a n, Reacted (retimed m a n s) t
  storage : s.sorted .timer → t.sorted .timer ∧ SameStorageBut .timer s.cfg.tTflg 2 s t

theorem TimerStepped.cfg {s t : State} (h : TimerStepped s t) : t.cfg = s.cfg := by
  obtain ⟨m, a, n, hr⟩ := h.reacted
  exact hr.cfg

theorem TimerStepped.trans {s t u : State} (h : TimerStepped s t) (g : TimerStepped t u) : TimerStepped s u := by
  refine ⟨?_, fun hs => ?_⟩
  · obtain ⟨m, a, n, hr⟩ := h.reacted
    obtain ⟨m1, a1, n1, gr⟩ := g.reacted
    exact ⟨m1, a1, n1, (reacted_retimed hr m1 a1 n1).trans gr⟩
  · obtain ⟨ht, hbut⟩ := h.storage hs
    obtain ⟨hu, gbut⟩ := g.storage ht
    rw [h.cfg] at gbut
    exact ⟨hu, fun r o hout => (gbut r o hout).trans (hbut r o hout)⟩

theorem timerStepped_of_reacted {s t : State} (h : Reacted s t) : TimerStepped s t where
  reacted := ⟨s.storT, s.acc, s.prevTcnt, h⟩
  storage hs := ⟨by rw [State.sorted, h.stor]; exact hs, fun r o _ => h.sameStorage r o⟩

theorem timerStepped_advance (d : Nat) (k : Channel) (s : State) : TimerStepped s (advance d k s) where
  reacted := by
    obtain ⟨m, h⟩ := advance_frame d k s
    rw [h]
    exact ⟨m, _, s.prevTcnt, .refl _⟩
  storage hs := ⟨advance_sorted hs d k, advance_sameStorageBut hs d k⟩

theorem timerStepped_setPrevTcnt (s : State) (n : Half) : TimerStepped s { s with prevTcnt := n } where
  reacted := ⟨s.storT, s.acc, n, .refl _⟩
  storage hs := ⟨hs, fun r _ _ => by cases r <;> rfl⟩

theorem timerStepped_execChannels {d : Nat} {ks : List Channel} {s t : State} (h : execChannels d ks s = .ok t) :
    TimerStepped s t := by
  induction ks generalizing s with
  | nil => cases h; exact timerStepped_of_reacted (.refl _)
  | cons k ks ih =>
    rw [execChannels] at h
    split at h
    next => cases h
    next u hu =>
      exact ((timerStepped_advance d k s).trans (timerStepped_of_reacted (execChannel_reacted hu))).trans (ih h)

theorem timerStepped_timerExec {d : Nat} {s t : State} (h : timerExec d s = .ok t) : TimerStepped s t := by
  unfold timerExec at h
  split at h
  next => cases h
  next =>
    split at h
    next => exact timerStepped_execChannels h
    next =>
      obtain ⟨u, hr, rfl⟩ := legacyExec_ok h
      exact (timerStepped_of_reacted hr).trans (timerStepped_setPrevTcnt u _)

theorem reacted_setPitCur {s t : State} (h : Reacted s t) (c : Int) :
    Reacted { s with pitCur := c } { t with pitCur := c } :=
  { h with pitCur := rfl }

/-- The clock/system module's exec step changes the count; the rest is no more than listeners do. -/
theorem clockExec_reacted {d : Nat} {s t : State} (h : clockExec d s = .ok t) :
    ∃ c, Reacted { s with pitCur := c } t := by
  obtain ⟨-, ⟨-, rfl⟩ | ⟨-, -, -, rfl⟩ | ⟨-, -, -, u, hu, rfl⟩⟩ := clockExec_ok h
  · exact ⟨_, .refl _⟩
  · exact ⟨_, .refl _⟩
  · exact ⟨_, reacted_setPitCur (raiseOnce_reacted hu) _⟩

/-- Both exec steps, the second from the state the first leaves. -/
theorem exec_steps_complete {d : Nat} (hlt : d < 2 ^ 31) {s : State} (hs : s.orderly)
    (hle : ∀ k ∈ activeChannels s.cfg.activeOc, s.acc[k] + d ≤ i32Max) (hrange : i32Min ≤ s.pitCur - d) :
    ∃ u t, timerExec d s = .ok u ∧ clockExec d u = .ok t ∧ TimerStepped s u ∧
      ∃ c, Reacted { u with pitCur := c } t := by
  obtain ⟨u, hu⟩ := timerExec_completes hlt hs hle
  have hstep := timerStepped_timerExec hu
  obtain ⟨m, a, n, hr⟩ := hstep.reacted
  obtain ⟨t, ht⟩ := clockExec_completes (s := u) hlt (hr.orderly hs) (by rw [hr.pitCur]; exact hrange)
  exact ⟨u, t, hu, ht, hstep, clockExec_reacted ht⟩

/-- Settles O53: the sequence is by definition but for the empty result between the steps, which no exec step reads. -/
theorem execVisitsPeripheralsInOrder : Obligations.ExecVisitsPeripheralsInOrder := by
  intro delta s
  refine ⟨hasWord_iff.mpr rfl, hasWord_iff.mpr rfl, fun hge => exec_sysExec_of_ge hge s, fun hlt => ?_,
    exec_qExec delta s, fun hinv hs hlt hle hrange => ?_⟩
  · rw [exec_sysExec_eq_andThen hlt, execList_exec_steps]
  · obtain ⟨u, t, hu, ht, hstep, c, hclock⟩ := exec_steps_complete hlt hs hle hrange
    obtain ⟨m, a, n, htimer⟩ := hstep.reacted
    obtain ⟨-, hbut⟩ := hstep.storage (hinv.storage .timer).1
    have htExec : exec (.tExec delta) s = .next (u.setResult .none) := finish_next.mpr ⟨u, hu, rfl⟩
    have hsExec : exec (.sExec delta) (u.setResult .none) = .next (t.setResult .none) :=
      finish_next.mpr ⟨t.setResult .none, by rw [clockExec_blind, ht]; rfl, rfl⟩
    refine ⟨_, _, htExec, hsExec, ?_, ?_, ?_, fun r o hout => ?_, ?_, ?_⟩
    · rw [exec_sysExec_eq_andThen hlt, htExec]
      exact hsExec
    · exact hclock.cycles.trans htimer.cycles
    · exact hclock.cfg.trans htimer.cfg
    · rw [setResult_byteAt, hclock.sameStorage r o, ← hbut r o hout]
      cases r <;> rfl
    · exact hclock.sysclk.trans htimer.sysclk
    · exact hclock.pitLoad.trans htimer.pitLoad

/-! ### What no operation but `RESET` undoes (R13, R34) -/

/-- The acknowledge, which `Untaken` does not cover, reports events and advances no counter either. -/
theorem ack_out_cycles {lvl : Level} {s t : State} (h : exec (.ack lvl) s = .next t) :
    s.out <+: t.out ∧ t.cycles = s.cycles := by
  obtain ⟨v, u, hu, rfl⟩ := exec_ack_next.mp h
  cases hv : s.queue[lvl] with
  | nil =>
    rw [ackLevel_empty hv] at hu
    cases hu
    exact ⟨List.prefix_rfl, rfl⟩
  | cons vec rest =>
    have hr := ackLevel_reacted hv hu
    exact ⟨(List.prefix_append ..).trans hr.out, hr.cycles⟩

theorem exec_out_cycles {i : Instr} {s t : State} (hreset : i ≠ .sysReset) (hstep : i ≠ .sysStep)
    (h : exec i s = .next t) : s.out <+: t.out ∧ t.cycles = s.cycles := by
  by_cases hack : ∃ lvl : Level, i = .ack lvl
  · obtain ⟨lvl, rfl⟩ := hack
    exact ack_out_cycles h
  · have hu := untaken_exec (not_exists.mp hack) hreset hstep h
    exact ⟨hu.out, hu.cycles⟩

theorem engineStep_out {op : EngineOp} {s t : State} (h : engineStep op s = .next t) : s.out <+: t.out := by
  have hreset : op.toInstr ≠ .sysReset := by cases op <;> exact nofun
  have hstep : op.toInstr ≠ .sysStep := by cases op <;> exact nofun
  unfold engineStep at h
  split at h
  next u hu =>
    cases h
    rw [engineOutcome_eq_exec] at hu
    exact (exec_out_cycles hreset hstep hu).1
  next => cases h
  next => cases h

theorem engineSteps_out {ops : List EngineOp} {s t : State} (h : engineSteps ops s = .next t) : s.out <+: t.out := by
  induction ops generalizing s with
  | nil => cases h; exact List.prefix_rfl
  | cons op ops ih =>
    unfold engineSteps at h
    split at h
    next u hu => exact (engineStep_out hu).trans (ih h)
    next => cases h
    next => cases h

theorem drawEngine_out (s : State) : (drawEngine s).out = s.out := by
  unfold drawEngine
  split <;> rfl

theorem advanceCycles_out (n : Nat) (s : State) : (advanceCycles n s).out = s.out := by
  unfold advanceCycles
  split <;> rfl

theorem exec_sysStep_out {s t : State} (h : exec .sysStep s = .next t) : s.out <+: t.out := by
  change execSysStep s = .next t at h
  unfold execSysStep at h
  split at h
  next u hu =>
    calc s.out
      _ = (drawEngine s).out := (drawEngine_out s).symm
      _ <+: u.out := engineSteps_out hu
      _ = (advanceCycles (engineAnswer s).cycles u).out := (advanceCycles_out ..).symm
      _ <+: t.out := (untaken_finish (fun _ => untaken_execAll) h).out
  next => cases h
  next => cases h

/-! ### The reset state (R36, R182, R221) -/

/-- What `RESET` leaves: the reset state of the configuration, and of `s` what is no state of the core (R33). -/
def resetOf (s : State) : State :=
  { State.boot s.cfg with
    hookGp := s.hookGp, hookE := s.hookE, hookF := s.hookF, hookQs := s.hookQs
    requests := s.requests, engine := s.engine, reactions := s.reactions
    engineResults := s.engineResults, freeCount := s.freeCount }

theorem exec_sysReset (s : State) : exec .sysReset s = .next (resetOf s) := rfl

/-- Every storage is its reset image: no byte is listed. -/
theorem resetOf_byteAt (s : State) (r : Region) (o : Nat) : (resetOf s).byteAt r o = imageByte s.cfg r o := by
  cases r <;> rfl

theorem resetOf_reg16 (s : State) (r : Region) (o : Nat) : (resetOf s).reg16 r o = imageHalf s.cfg r o := by
  rw [State.reg16, resetOf_byteAt, resetOf_byteAt, imageHalf]

theorem resetOf_port (s : State) (p : Port) :
    (resetOf s).port p = ⟨resetDirection s.cfg p, resetEnabled s.cfg p, 0, 0⟩ := by
  cases p <;> rfl

/-- Settles O56: the trace only grows at its end, through the engine's operations too; `RESET` computes its state from
the images. -/
theorem resetRestoresEveryField : Obligations.ResetRestoresEveryField := by
  refine ⟨fun i s t hreset h => ?_, fun s => ?_⟩
  · by_cases hstep : i = .sysStep
    · exact ⟨exec_sysStep_out (hstep ▸ h), fun hne => absurd hstep hne⟩
    · obtain ⟨hout, hcycles⟩ := exec_out_cycles hreset hstep h
      exact ⟨hout, fun _ => hcycles⟩
  · have himage (r : Region) (o : Nat) : imageByte s.cfg r o = (resetOf s).byteAt r o := (resetOf_byteAt s r o).symm
    refine ⟨hasWord_iff.mpr rfl, resetOf s, exec_sysReset s, resetOf_byteAt s, fun p => ?_,
      himage .timer _, rfl, himage .sys _, congrArg (~~~ ·) (himage .sys _), himage .sys _,
      congrArg (~~~ ·) (himage .sys _), rfl, rfl, fun k => ?_, rfl, ?_, ?_, rfl, fun l => ?_, rfl, rfl, rfl⟩
    · rw [resetOf_port]; exact ⟨rfl, rfl⟩
    · fin_cases k <;> rfl
    · rw [resetOf_reg16]; rfl
    · rw [resetOf_reg16, resetOf_reg16]; rfl
    · fin_cases l <;> rfl

end Sys2Proof.Integration

namespace Sys2Proof.RegisterDecode

/-! PROOFS. The register decode and the round trip of the encoding (`30_encoding.md` R60 to R64): which word every
operation is read back from, which address names which register, and which offsets a register covers. -/

open Sys2Proof Sys2Proof.Machine Sys2Proof.Encoding Sys2Proof.RegionAccess Sys2Proof.PortAccess Sys2Proof.NamedRegisters
  Sys2Proof.TimerRegisters Sys2Proof.ClockPit Sys2Proof.InterruptArbiter Sys2Proof.Integration

/-! ### The fields of a register-access word (R64; log entry 3) -/

section

variable (addr : Word) (kind : BitVec 8) (data : Half)

theorem packReg_register : ((packReg addr kind data).extractLsb' 0 20).toNat = addr.toNat % 2 ^ 20 := by
  have hlow : (packReg addr kind data).extractLsb' 0 20 = addr.extractLsb' 0 20 := by
    ext i hi
    simp only [packReg, BitVec.getElem_extractLsb', BitVec.getLsbD_append, Nat.zero_add, show i < 32 by omega, if_true]
  simp [hlow]

theorem packReg_kind : (packReg addr kind data).extractLsb' 32 8 = kind := by
  ext i hi
  simp only [packReg, BitVec.getElem_extractLsb', BitVec.getLsbD_append, show ¬ 32 + i < 32 by omega, if_false,
    Nat.add_sub_cancel_left, hi, if_true, BitVec.getLsbD_eq_getElem hi]

theorem packReg_data : (packReg addr kind data).extractLsb' 40 16 = data := by
  ext i hi
  simp only [packReg, BitVec.getElem_extractLsb', BitVec.getLsbD_append, show ¬ 40 + i < 32 by omega,
    show ¬ 40 + i - 32 < 8 by omega, show 40 + i - 32 - 8 = i by omega, if_false, BitVec.getLsbD_eq_getElem hi]

end

/-! ### The register an address selects (R64) -/

/-- A register covers its own byte, and a second one if its name has one. -/
theorem registerAt_registerAddress {n : RegName} {lo : Bool} (hw : (n.instr (.read8 lo)).wf = true) :
    registerAt (registerAddress n + lo.toNat) = some (n, lo) := by
  revert hw
  cases n <;> cases lo <;> decide

theorem registerAt_eq_some {a : Nat} {n : RegName} {lo : Bool} (h : registerAt a = some (n, lo)) :
    (n.instr (.read8 lo)).wf = true ∧ a = registerAddress n + lo.toNat := by
  unfold registerAt at h
  split at h <;> cases h <;> exact ⟨rfl, rfl⟩

/-- The kind and data fields that stand for an access (log entry 3). -/
def fieldsOf : RegAccess → BitVec 8 × Half
  | .read8 _ => (0, 0)
  | .write8 _ v => (1, v.setWidth 16)
  | .read16 => (2, 0)
  | .write16 v => (3, v)

/-- Whether an access reaches the second byte of its register only. -/
def laneOf : RegAccess → Bool
  | .read8 lo => lo
  | .write8 lo _ => lo
  | .read16 => false
  | .write16 _ => false

theorem accessOf_fieldsOf (acc : RegAccess) :
    accessOf (fieldsOf acc).1.toNat (laneOf acc) (fieldsOf acc).2 = .ok acc := by
  cases acc with
  | read8 lo => rfl
  | write8 lo v =>
    have hv : v.setWidth 16 = (0 : Byte) ++ v := by simp [BitVec.setWidth_eq_append]
    simp only [fieldsOf, laneOf, hv]
    change accessOf 1 lo _ = _
    rw [accessOf, extract_append_high, if_pos rfl, extract_append_low]
  | read16 => rfl
  | write16 v => rfl

/-- The name of a 16-bit register has every access, that of an 8-bit one those that fit it. -/
theorem wf_instr (n : RegName) (acc : RegAccess) :
    (n.instr acc).wf = ((n.instr .read16).wf || acc.fits8) := by
  cases n <;> rfl

/-- An instruction that has an access at a lane has the 8-bit read there. -/
theorem wf_read8_of_wf {n : RegName} {acc : RegAccess} (hw : (n.instr acc).wf = true) :
    (n.instr (.read8 (laneOf acc))).wf = true := by
  rw [wf_instr] at hw ⊢
  cases acc with
  | read8 lo => exact hw
  | write8 lo v => exact hw
  | read16 | write16 => simp_all [RegAccess.fits8]

/-- Every access to a register is read back from a word whose address selects the register's byte, whatever the bits
31:20 of the address are. -/
theorem decode_packReg {n : RegName} {acc : RegAccess} (hw : (n.instr acc).wf = true) {addr : Word}
    (haddr : addr.toNat % 2 ^ 20 = registerAddress n + (laneOf acc).toNat) :
    decode (.reg (packReg addr (fieldsOf acc).1 (fieldsOf acc).2)) = .ok (n.instr acc) := by
  have hat := registerAt_registerAddress (wf_read8_of_wf hw)
  simp only [decode, decodeReg, packReg_register, packReg_kind, packReg_data, haddr, hat, accessOf_fieldsOf, hw, if_true]

theorem decode_packReg_noRegister {addr : Word} (h : ∀ (n : RegName) (lo : Bool), (n.instr (.read8 lo)).wf = true →
    addr.toNat % 2 ^ 20 ≠ registerAddress n + lo.toNat) (kind : BitVec 8) (data : Half) :
    decode (.reg (packReg addr kind data)) = .error .noRegister := by
  have hnone : registerAt (addr.toNat % 2 ^ 20) = none := by
    rw [Option.eq_none_iff_forall_ne_some]
    rintro ⟨n, lo⟩ hat
    obtain ⟨hw, haddr⟩ := registerAt_eq_some hat
    exact h n lo hw haddr
  simp only [decode, decodeReg, packReg_register, hnone]

theorem encodeReg_eq (n : RegName) (acc : RegAccess) : encodeReg n acc =
    .reg (packReg (BitVec.ofNat 32 (registerAddress n + (laneOf acc).toNat)) (fieldsOf acc).1 (fieldsOf acc).2) := by
  cases acc <;> rfl

theorem decode_encodeReg {n : RegName} {acc : RegAccess} (hw : (n.instr acc).wf = true) :
    decode (encodeReg n acc) = .ok (n.instr acc) := by
  rw [encodeReg_eq]
  refine decode_packReg hw ?_
  have hlane := (laneOf acc).toNat_le
  have haddr : registerAddress n < 2 ^ 20 - 1 := by cases n <;> decide
  rw [BitVec.toNat_ofNat]
  omega

/-! ### The round trip (R60 to R64) -/

theorem decode_packTw {opc : BitVec 8} {a d : Word} {i : Instr} (h : decodeFields opc.toNat a d = .ok i) :
    decode (.tw (packTw opc a d)) = .ok i :=
  hasWord_iff.mpr h

/-- Settles O1: the formats of R60 read their operands back, and a register's address selects its byte. -/
theorem decodeInvertsEncode : Obligations.DecodeInvertsEncode := by
  intro i hw
  cases i with
  -- an address alone, or with 32 bits of data; no operand, or a number of cycles
  | read8 | read16 | read32 | write32 | fetch16 | fetch32 | rgnInrangeT | rgnInrangeS | rgnInrangeQ | rgnR8T | rgnR8S
  | rgnR8Q | rgnR16T | rgnR16S | rgnR16Q | sysStep | sysExec | sysReset | resethook | resetpc | resetsp | tExec | sExec
  | qExec => exact decode_packTw rfl
  -- an address with a byte or a 16-bit value, an opcode
  | write8 | rgnW8T | rgnW8S | rgnW8Q => exact decode_packTw (byteOperand_byteWord _ _)
  | write16 | rgnW16T | rgnW16S | rgnW16Q => exact decode_packTw (halfOperand_halfWord _ _)
  | illegal => exact decode_packTw (halfOperand_halfWord _ _)
  -- a port, with a byte or alone
  | pSetdir p m => exact decode_packTw (portOperand_byteOperand p m .pSetdir)
  | pWritetx p b => exact decode_packTw (portOperand_byteOperand p b .pWritetx)
  | pWriterx p b => exact decode_packTw (portOperand_byteOperand p b .pWriterx)
  | pEnable p m => exact decode_packTw (portOperand_byteOperand p m .pEnable)
  | pRead p => exact decode_packTw (portOperand_portWord p fun q => unused 0 (.pRead q))
  -- a level, with a vector or alone
  | inject v l => exact decode_packTw (levelOperand_byteOperand l v fun l v => .inject v l)
  | haspend v l => exact decode_packTw (levelOperand_byteOperand l v fun l v => .haspend v l)
  | ack l => exact decode_packTw (levelOperand_levelWord l fun l => unused 0 (.ack l))
  -- an access to a named register
  | ddrgp => exact decode_encodeReg (n := .ddrgp) hw
  | portgp => exact decode_encodeReg (n := .portgp) hw
  | tcnt => exact decode_encodeReg (n := .tcnt) hw
  | toc1 => exact decode_encodeReg (n := .toc1) hw
  | toc2 => exact decode_encodeReg (n := .toc2) hw
  | toc3 => exact decode_encodeReg (n := .toc3) hw
  | toc4 => exact decode_encodeReg (n := .toc4) hw
  | tmsk => exact decode_encodeReg (n := .tmsk) hw
  | tflg => exact decode_encodeReg (n := .tflg) hw
  | syncr => exact decode_encodeReg (n := .syncr) hw
  | porte0 => exact decode_encodeReg (n := .porte0) hw
  | porte1 => exact decode_encodeReg (n := .porte1) hw
  | ddre => exact decode_encodeReg (n := .ddre) hw
  | pepar => exact decode_encodeReg (n := .pepar) hw
  | portf0 => exact decode_encodeReg (n := .portf0) hw
  | portf1 => exact decode_encodeReg (n := .portf1) hw
  | ddrf => exact decode_encodeReg (n := .ddrf) hw
  | pfpar => exact decode_encodeReg (n := .pfpar) hw
  | picr => exact decode_encodeReg (n := .picr) hw
  | pitr => exact decode_encodeReg (n := .pitr) hw

/-- Settles O4: the transaction words are the encodings of their operations, and the address selects `TCNT`. -/
theorem specWordsDecode : Obligations.SpecWordsDecode :=
  ⟨decodeInvertsEncode (.write16 0xFF914 0x0100) rfl, decodeInvertsEncode (.rgnInrangeQ 0xFFC00) rfl,
    decodeInvertsEncode (.pWritetx .e 0x81) rfl, decodeInvertsEncode (.inject 0x40 6) rfl,
    decodeInvertsEncode (.sysExec 5) rfl, decodeInvertsEncode (.illegal 0x4AFC) rfl,
    decodeInvertsEncode (.tcnt .read16) rfl⟩

/-- Settles O5: every access to a register is read back whatever the high bits of its address are. -/
theorem registerWordsSelectTheirRegister : Obligations.RegisterWordsSelectTheirRegister := by
  refine ⟨fun n => ?_, fun n lo addr hw haddr => ⟨?_, fun v => ?_, ?_⟩, fun addr kind data h => ?_⟩
  · cases n <;> rfl
  · exact decode_packReg (acc := .read8 lo) hw haddr
  · rw [wf_instr] at hw
    exact decode_packReg (acc := .write8 lo v) ((wf_instr n _).trans hw) haddr
  · rintro hw16 rfl
    refine ⟨decode_packReg (acc := .read16) hw16 haddr, fun v => ?_⟩
    rw [wf_instr] at hw16
    exact decode_packReg (acc := .write16 v) ((wf_instr n _).trans hw16) haddr
  · exact decode_packReg_noRegister h kind data

/-! ### The offsets a register covers (R22, R23, R64) -/

/-- The bytes of the register `g` in region `r`, as R22 and R23 list them. -/
def Covers (c : Cfg) (o : Nat) : Region → Reg → Prop
  | .timer, .dir .gp => o = c.tDdrgp
  | .timer, .data .gp => o = c.tPortgp
  | .timer, .tcnt => o = c.tTcnt ∨ o = c.tTcnt + 1
  | .timer, .toc k => o = c.tToc[k] ∨ o = c.tToc[k] + 1
  | .timer, .tmsk => o = c.tTmsk ∨ o = c.tTmsk + 1
  | .timer, .tflg => o = c.tTflg ∨ o = c.tTflg + 1
  | .sys, .syncr => o = c.sSyncr ∨ o = c.sSyncr + 1
  | .sys, .data .e => o ∈ c.sPorteData
  | .sys, .dir .e => o = c.sDdre
  | .sys, .assign .e => o = c.sPepar
  | .sys, .data .f => o ∈ c.sPortfData
  | .sys, .dir .f => o = c.sDdrf
  | .sys, .assign .f => o = c.sPfpar
  | .sys, .picr => o = c.sPicr ∨ o = c.sPicr + 1
  | .sys, .pitr => o = c.sPitr ∨ o = c.sPitr + 1
  | _, _ => False

theorem covers_of_regAt {c : Cfg} {o : Nat} {r : Region} {g : Reg} (h : regAt c r o = some g) : Covers c o r g := by
  cases r with
  | timer =>
    simp only [regAt, regAtT, covers16_iff] at h
    split_ifs at h <;> cases h <;> assumption
  | sys =>
    simp only [regAt, regAtS, covers16_iff] at h
    split_ifs at h <;> cases h <;> assumption
  | serial => cases h

theorem HalfAt.regAt {c : Cfg} {r : Region} {g : Reg} {x o : Nat} (h : HalfAt c r g x) (ho : o = x ∨ o = x + 1) :
    Machine.regAt c r o = some g := by
  obtain rfl | rfl := ho
  · exact h.hi
  · exact h.lo

theorem regAt_of_covers {c : Cfg} (hc : c.WF) {o : Nat} {r : Region} {g : Reg} (h : Covers c o r g) :
    regAt c r o = some g := by
  obtain ⟨htcnt, htoc, htmsk, htflg⟩ := timer_halfAt hc
  obtain ⟨hsyncr, hpicr, hpitr⟩ := sys_halfAt hc
  obtain ⟨hddre, hpepar, hddrf, hpfpar⟩ := regAt_sys_port_registers hc
  unfold Covers at h
  split at h
  next => exact if_pos h
  next => exact (regAt_timer_eq_data hc).mpr ⟨rfl, h⟩
  next => exact HalfAt.regAt htcnt h
  next k => exact HalfAt.regAt (htoc k) h
  next => exact HalfAt.regAt htmsk h
  next => exact HalfAt.regAt htflg h
  next => exact HalfAt.regAt hsyncr h
  next => exact (regAt_sys_eq_data hc).mpr (.inl ⟨rfl, h⟩)
  next => exact h ▸ hddre
  next => exact h ▸ hpepar
  next => exact (regAt_sys_eq_data hc).mpr (.inr ⟨rfl, h⟩)
  next => exact h ▸ hddrf
  next => exact h ▸ hpfpar
  next => exact HalfAt.regAt hpicr h
  next => exact HalfAt.regAt hpitr h
  next => exact h.elim

theorem regAt_eq_some_iff {c : Cfg} (hc : c.WF) {o : Nat} {r : Region} {g : Reg} :
    regAt c r o = some g ↔ Covers c o r g :=
  ⟨covers_of_regAt, regAt_of_covers hc⟩

/-- P6, P7: every register lies inside its window. -/
theorem covers_lt {c : Cfg} (hc : c.WF) {o : Nat} {r : Region} {g : Reg} (h : Covers c o r g) : o < regionSize r := by
  obtain ⟨-, ⟨-, hT, -, hS, -⟩, -⟩ := hc
  have hE (ho : o ∈ c.sPorteData) := (hS (o, 1) (by simp [Cfg.spansS, ho])).1
  have hF (ho : o ∈ c.sPortfData) := (hS (o, 1) (by simp [Cfg.spansS, ho])).1
  simp only [Cfg.spansT, List.forall_mem_cons] at hT
  simp only [Cfg.spansS, List.forall_mem_append, List.forall_mem_cons] at hS
  have htoc (k : Channel) : c.tToc[k] + 2 ≤ 64 := by
    obtain ⟨-, -, -, h0, h1, h2, h3, -⟩ := hT
    fin_cases k
    exacts [h0.1, h1.1, h2.1, h3.1]
  unfold Covers at h
  split at h <;> simp only [regionSize]
  case h_4 k => have := htoc k; omega
  case h_8 => exact hE h
  case h_11 => exact hF h
  case h_16 => exact h.elim
  all_goals omega

/-- Settles O6: the register at an offset is the one whose bytes hold it (`Covers`), and none where there is none. -/
theorem offsetsSelectTheirRegister : Obligations.OffsetsSelectTheirRegister := by
  intro c hc o
  have hiff (r : Region) (g : Reg) : regAt c r o = some g ↔ Covers c o r g := regAt_eq_some_iff hc
  refine ⟨hiff _ _, hiff _ _, hiff _ _, fun k => hiff _ _, hiff _ _, hiff _ _, hiff _ _, hiff _ _, hiff _ _, hiff _ _,
    hiff _ _, hiff _ _, hiff _ _, hiff _ _, hiff _ _, ?_, ?_, rfl, fun g h => covers_lt hc (covers_of_regAt h),
    fun g h => covers_lt hc (covers_of_regAt h)⟩
  · intro hdir hdata htcnt htoc htmsk htflg
    rw [Option.eq_none_iff_forall_ne_some]
    intro g hg
    have hcov := covers_of_regAt hg
    unfold Covers at hcov
    split at hcov <;> simp_all
  · intro hsyncr he hddre hpepar hf hddrf hpfpar hpicr hpitr
    rw [Option.eq_none_iff_forall_ne_some]
    intro g hg
    have hcov := covers_of_regAt hg
    unfold Covers at hcov
    split at hcov <;> simp_all

end Sys2Proof.RegisterDecode

namespace Sys2Proof.RegionWrites

/-! PROOFS. Writes to the regions (`40_mmio_region.md` R84 to R87): what the side effect of a write keeps, listeners and
all, where it completes, and what a whole write leaves. -/

open Sys2Proof Sys2Proof.Machine Sys2Proof.RegionAccess Sys2Proof.PortAccess Sys2Proof.NamedRegisters
  Sys2Proof.TimerRegisters Sys2Proof.BusDispatch Sys2Proof.InterruptArbiter Sys2Proof.Integration
  Sys2Proof.RegisterDecode

/-! ### What a served access keeps (R33, R54) -/

/-- The system clock is that of some value of `SYNCR` (R132). -/
def Clocked (s : State) : Prop := ∃ y : Half, s.sysclk = clockOf s.cfg y

/-- What every read, write and acknowledge keeps, listeners and all: the configuration, the cycle counter and what the host
and the engine still have to do. An accumulator stays or is resynchronised (R114), and so lies below `WRAP`; the count
stays or restarts from a load value (R134). -/
structure Served (s t : State) : Prop where
  cfg : t.cfg = s.cfg
  cycles : t.cycles = s.cycles
  requests : t.requests = s.requests
  engine : t.engine = s.engine
  engineResults : t.engineResults = s.engineResults
  reactions : t.reactions <:+ s.reactions
  clocked : Clocked s → Clocked t
  acc : ∀ k : Channel, t.acc[k] = s.acc[k] ∨ t.acc[k] < wrapCycles
  count : t.pitCur = s.pitCur ∨ 0 ≤ t.pitCur

theorem Served.refl (s : State) : Served s s where
  cfg := rfl
  cycles := rfl
  requests := rfl
  engine := rfl
  engineResults := rfl
  reactions := List.suffix_rfl
  clocked := id
  acc _ := .inl rfl
  count := .inl rfl

theorem Served.trans {s t u : State} (h : Served s t) (g : Served t u) : Served s u where
  cfg := g.cfg.trans h.cfg
  cycles := g.cycles.trans h.cycles
  requests := g.requests.trans h.requests
  engine := g.engine.trans h.engine
  engineResults := g.engineResults.trans h.engineResults
  reactions := g.reactions.trans h.reactions
  clocked := g.clocked ∘ h.clocked
  acc k := by
    obtain hg | hg := g.acc k
    · rw [hg]; exact h.acc k
    · exact .inr hg
  count := by
    obtain hg | hg := g.count
    · rw [hg]; exact h.count
    · exact .inr hg

theorem Served.orderly {s t : State} (h : Served s t) (hs : s.orderly) : t.orderly :=
  fun rs hrs => hs rs (h.reactions.subset hrs)

theorem clocked_congr {s t : State} (hcfg : t.cfg = s.cfg) (hclock : t.sysclk = s.sysclk) (h : Clocked s) :
    Clocked t := by
  obtain ⟨y, hy⟩ := h
  exact ⟨y, by rw [hclock, hcfg, hy]⟩

theorem served_of_reacted {s t : State} (h : Reacted s t) : Served s t where
  cfg := h.cfg
  cycles := h.cycles
  requests := h.requests
  engine := h.engine
  engineResults := h.engineResults
  reactions := h.reactions
  clocked := clocked_congr h.cfg h.sysclk
  acc k := .inl (by rw [h.acc])
  count := .inl h.pitCur

theorem served_setStor (s : State) (r : Region) (m : List Host.Cell) : Served s (s.setStor r m) := by
  constructor <;> simp [Clocked]

theorem served_setPort (s : State) (p : Port) (v : PortState) : Served s (s.setPort p v) := by
  constructor <;> simp [Clocked]

theorem served_setQueue (s : State) (l : Level) (q : List Byte) : Served s (s.setQueue l q) := by
  constructor <;> simp [Clocked]

theorem served_setResult (s : State) (x : Result) : Served s (s.setResult x) := by
  constructor <;> simp [Clocked]

theorem served_storeByte (r : Region) (o : Nat) (b : Byte) (s : State) : Served s (storeByte r o b s) := by
  obtain ⟨m, hstore⟩ := storeByte_frame r o b s
  rw [hstore]
  exact served_setStor s r m

/-! ### The side effect of a write (R87) -/

/-- What a side effect keeps: what a served access does, and the storages. -/
structure Effected (s t : State) : Prop extends Served s t where
  stor : ∀ r : Region, t.stor r = s.stor r

theorem Effected.refl (s : State) : Effected s s := ⟨.refl s, fun _ => rfl⟩

theorem Effected.trans {s t u : State} (h : Effected s t) (g : Effected t u) : Effected s u :=
  ⟨h.toServed.trans g.toServed, fun r => (g.stor r).trans (h.stor r)⟩

theorem Effected.byteAt {s t : State} (h : Effected s t) (r : Region) (o : Nat) : t.byteAt r o = s.byteAt r o :=
  sameStorage_of_stor h.cfg h.stor r o

theorem effected_of_reacted {s t : State} (h : Reacted s t) : Effected s t := ⟨served_of_reacted h, h.stor⟩

theorem effected_setPort (s : State) (p : Port) (v : PortState) : Effected s (s.setPort p v) :=
  ⟨served_setPort s p v, fun _ => setPort_stor ..⟩

theorem effected_bumpWriteCounter (p : Port) (s : State) : Effected s (bumpWriteCounter p s) := by
  obtain ⟨w, n, hbump, -⟩ := bumpWriteCounter_eq p s
  have hport := effected_setPort s p { s.port p with writeCounter := w }
  rw [hbump]
  exact { hport with stor := fun r => by rw [← hport.stor r]; cases r <;> rfl }

theorem targetCycles_lt (v : Half) : targetCycles v < wrapCycles := by
  rw [targetCycles_eq, wrapCycles]
  omega

theorem resyncValue_lt_wrapCycles (s : State) (k : Channel) (a : Int) : resyncValue (s.target k) a < wrapCycles := by
  obtain ⟨-, hle, -⟩ := resyncValue_bounds (s.target k) a
  exact hle.trans_lt (targetCycles_lt _)

theorem effected_resync (k : Channel) (s : State) : Effected s (resync k s) where
  toServed := { Served.refl s with
    acc := fun j => by
      rw [resync, setAcc_getElem]
      split
      · exact .inr (resyncValue_lt_wrapCycles s k _)
      · exact .inl rfl }
  stor _ := setAcc_stor ..

theorem effected_resyncAll (s : State) : Effected s (resyncAll s) :=
  (((effected_resync 0 s).trans (effected_resync 1 _)).trans (effected_resync 2 _)).trans (effected_resync 3 _)

theorem effected_pitRecompute {s t : State} (h : pitRecompute s = .ok t) : Effected s t := by
  obtain ⟨-, rfl⟩ := pitRecompute_ok h
  exact ⟨{ Served.refl s with count := .inr (pitLoadOf_nonneg ..) }, fun r => by cases r <;> rfl⟩

theorem effected_clockUpdate {s t : State} (h : clockUpdate s = .ok t) : Effected s t := by
  obtain ⟨-, rfl⟩ := pitRecompute_ok h
  exact ⟨{ Served.refl s with clocked := fun _ => ⟨_, rfl⟩, count := .inr (pitLoadOf_nonneg ..) },
    fun r => by cases r <;> rfl⟩

theorem sideEffect_effected {r : Region} {o : Nat} {g : Option Reg} {s t : State} (h : sideEffect r o g s = .ok t) :
    Effected s t := by
  unfold sideEffect at h
  split at h
  next p => exact (effected_setPort s p _).trans (effected_of_reacted (emit_reacted' h))
  next p =>
    exact ((effected_setPort s p _).trans (effected_bumpWriteCounter p _)).trans (effected_of_reacted (emit_reacted' h))
  next p => cases h; exact effected_setPort s p _
  next k => split at h <;> cases h; exacts [effected_resync k s, .refl s]
  next => split at h <;> cases h; exacts [effected_resyncAll s, .refl s]
  next => exact effected_clockUpdate h
  next => exact effected_pitRecompute h
  next => exact effected_pitRecompute h
  all_goals cases h; exact .refl s

/-- A side effect completes when no listener issues a nested step and no load value leaves `i32`. -/
theorem sideEffect_completes {s : State} (hs : s.orderly) (hfit : LoadsFit s.cfg) (hclock : Clocked s) (r : Region)
    (o : Nat) (g : Option Reg) : ∃ t, sideEffect r o g s = .ok t := by
  have hrecompute : ∃ t, pitRecompute s = .ok t := by
    obtain ⟨y, hy⟩ := hclock
    exact ⟨_, pitRecompute_of_le (by rw [pitLoadNow, hy]; exact hfit _ _ _)⟩
  unfold sideEffect
  split
  next p => exact portSetDir_completes hs p _
  next p => exact portWriteTx_completes hs p _
  next p => exact ⟨_, rfl⟩
  next k => split <;> exact ⟨_, rfl⟩
  next => split <;> exact ⟨_, rfl⟩
  next => exact ⟨_, pitRecompute_of_le (hfit _ _ _)⟩
  next => exact hrecompute
  next => exact hrecompute
  all_goals exact ⟨_, rfl⟩

/-! ### Whole writes (R84, R85, R87) -/

/-- Both bytes of a word, stored before any side effect. -/
def storeWord (r : Region) (o : Nat) (v : Half) (s : State) : State :=
  storeByte r (o + 1) (loByte v) (storeByte r o (hiByte v) s)

theorem served_storeWord (r : Region) (o : Nat) (v : Half) (s : State) : Served s (storeWord r o v s) :=
  (served_storeByte ..).trans (served_storeByte ..)

theorem regionWrite8_effected {r : Region} {o : Nat} {v : Byte} {s t : State} (h : regionWrite8 r o v s = .ok t) :
    Effected (storeByte r o v s) t :=
  sideEffect_effected h

theorem regionWrite16_effected {r : Region} {o : Nat} {v : Half} {s t : State} (h : regionWrite16 r o v s = .ok t) :
    Effected (storeWord r o v s) t := by
  obtain ⟨-, heffect⟩ | ⟨-, u, hfirst, hsecond⟩ := regionWrite16_ok h
  · exact sideEffect_effected heffect
  · exact (sideEffect_effected hfirst).trans (sideEffect_effected hsecond)

section

variable {s : State} (hs : s.orderly) (hfit : LoadsFit s.cfg) (hclock : Clocked s) (r : Region) (o : Nat)

include hs hfit hclock

theorem regionWrite8_completes (v : Byte) : ∃ t, regionWrite8 r o v s = .ok t := by
  have hstored := served_storeByte r o v s
  exact sideEffect_completes (hstored.orderly hs) (hstored.cfg ▸ hfit) (hstored.clocked hclock) ..

theorem regionWrite16_completes (v : Half) : ∃ t, regionWrite16 r o v s = .ok t := by
  have hstored := served_storeWord r o v s
  obtain ⟨u, hu⟩ := sideEffect_completes (hstored.orderly hs) (hstored.cfg ▸ hfit) (hstored.clocked hclock) r o
    (regAt s.cfg r o)
  have hboth := hstored.trans (sideEffect_effected hu).toServed
  obtain ⟨t, ht⟩ := sideEffect_completes (hboth.orderly hs) (hboth.cfg ▸ hfit) (hboth.clocked hclock) r (o + 1)
    (regAt s.cfg r (o + 1))
  unfold storeWord at hu
  simp only [regionWrite16, hu]
  split
  · exact ⟨u, rfl⟩
  · exact ⟨t, ht⟩

end

/-! ### 16-bit registers at even offsets (P6, P7) -/

/-- The registers of 16 bits. -/
def wide : Reg → Bool
  | .dir _ | .data _ | .assign _ => false
  | .tcnt | .toc _ | .tmsk | .tflg | .syncr | .picr | .pitr => true

/-- A 16-bit register that covers one byte of an aligned word covers the other. -/
theorem regAt_succ_iff {c : Cfg} (hc : c.WF) {r : Region} {o : Nat} (heven : o % 2 = 0) {g : Reg} (hg : wide g = true) :
    regAt c r (o + 1) = some g ↔ regAt c r o = some g := by
  rw [regAt_eq_some_iff hc, regAt_eq_some_iff hc]
  obtain ⟨-, ⟨-, hT, -, hS, -⟩, -⟩ := hc
  simp only [Cfg.spansT, List.forall_mem_cons, true_imp_iff] at hT
  simp only [Cfg.spansS, List.forall_mem_append, List.forall_mem_cons, true_imp_iff] at hS
  have htoc (k : Channel) : c.tToc[k] % 2 = 0 := by
    obtain ⟨-, -, -, h0, h1, h2, h3, -⟩ := hT
    fin_cases k
    exacts [h0.2, h1.2, h2.2, h3.2]
  cases g with
  | dir | data | assign => cases hg
  | toc k =>
    have := htoc k
    cases r <;> simp only [Covers]
    omega
  | tcnt | tmsk | tflg | syncr | picr | pitr =>
    cases r <;> simp only [Covers]
    omega

/-- An aligned word over two registers, or one and none, touches no 16-bit register. -/
theorem not_wide_of_ne {c : Cfg} (hc : c.WF) {r : Region} {o : Nat} (heven : o % 2 = 0)
    (hne : regAt c r o ≠ regAt c r (o + 1)) {g : Reg} (h : regAt c r o = some g ∨ regAt c r (o + 1) = some g) :
    wide g = false := by
  rw [← Bool.not_eq_true]
  intro hg
  obtain h | h := h
  · exact hne (h.trans ((regAt_succ_iff hc heven hg).mpr h).symm)
  · exact hne (((regAt_succ_iff hc heven hg).mp h).trans h.symm)

/-- P5: a region's base is even. -/
theorem regionBase_even {c : Cfg} (hc : c.WF) (r : Region) : regionBase c r % 2 = 0 := by
  obtain ⟨⟨hT, hS, hQ, -⟩, -⟩ := hc
  cases r <;> assumption

theorem offset_even {c : Cfg} (hc : c.WF) {r : Region} {a : Nat} (h : Claims c r a) (heven : a % 2 = 0) :
    (a - regionBase c r) % 2 = 0 := by
  have := regionBase_even hc r
  have := h.1
  omega

/-- Away from `Tcnt` both bytes of an aligned word are stored. -/
theorem storeWord_of_ne_tcnt {s : State} (hc : s.cfg.WF) {r : Region} {o : Nat} (heven : o % 2 = 0)
    (h : regAt s.cfg r o ≠ some .tcnt) (v : Half) : storeWord r o v s = s.setReg16 r o v := by
  rw [storeWord, storeByte_of_ne_tcnt hc h, storeByte_of_ne_tcnt (by rwa [setByte_cfg])
    (by rw [setByte_cfg]; exact mt (regAt_succ_iff hc heven rfl).mp h), State.setReg16]

/-- What a store of a word leaves of the other bytes. -/
theorem storeWord_byteAt_of_ne {s : State} {r : Region} (hsorted : s.sorted r) {o : Nat} (v : Half) {r1 : Region}
    {x : Nat} (h : ¬ (r1 = r ∧ (x = o ∨ x = o + 1))) : (storeWord r o v s).byteAt r1 x = s.byteAt r1 x := by
  rw [storeWord, storeByte_byteAt (storeByte_sorted hsorted ..), if_neg (by tauto), storeByte_byteAt hsorted,
    if_neg (by tauto)]

/-! ### A word that was written is read back (R55) -/

theorem exec_w16Of_next {r : Region} {addr : Word} {v : Half} {s t : State} (h : exec (w16Of r addr v) s = .next t) :
    (addr.toNat % 2 = 0 ∧ Claims s.cfg r addr.toNat ∧ Claims s.cfg r (addr.toNat + 1)) ∧
      ∃ u, regionWrite16 r (addr.toNat - regionBase s.cfg r) v s = .ok u ∧ t = u.setResult .none := by
  obtain heven | hodd := Nat.mod_two_eq_zero_or_one addr.toNat
  · by_cases hin : Claims s.cfg r addr.toNat ∧ Claims s.cfg r (addr.toNat + 1)
    · rw [exec_w16Of_of_claims heven hin] at h
      exact ⟨⟨heven, hin⟩, finish_next.mp h⟩
    · rw [exec_w16Of_outside heven hin] at h
      cases h
  · rw [exec_w16Of_of_odd hodd] at h
    cases h

/-- Settles O18: both bytes are stored, and no side effect touches a storage. -/
theorem wordsAreReadBack : Obligations.WordsAreReadBack := by
  rintro r addr v s t o hinv rfl hdata hcount h
  obtain ⟨⟨heven, hin, hin1⟩, u, hu, rfl⟩ := exec_w16Of_next h
  have hc := hinv.config
  have hsorted : s.sorted r := (hinv.storage r).1
  have hoff := offset_even hc hin heven
  have heffect := regionWrite16_effected hu
  rw [storeWord_of_ne_tcnt hc hoff hcount] at heffect
  generalize haddr : addr.toNat - regionBase s.cfg r = o at *
  have hcfg : u.cfg = s.cfg := heffect.cfg.trans (setReg16_cfg ..)
  have hcount1 := mt (regAt_succ_iff hc hoff (g := .tcnt) rfl).mp hcount
  have hlane (x : Nat) (hx : regAt s.cfg r x ≠ some .tcnt) (hp : ∀ p, regAt s.cfg r x ≠ some (.data p)) :
      laneRead r x (u.setResult .none) = (s.setReg16 r o v).byteAt r x := by
    rw [laneRead_of_storage (by rwa [setResult_cfg, hcfg]) (by rwa [setResult_cfg, hcfg]), setResult_byteAt,
      heffect.byteAt]
  rw [exec_r16Of_of_claims heven (by rw [setResult_cfg, hcfg]; exact ⟨hin, hin1⟩), regionRead16, setResult_cfg, hcfg,
    haddr, hlane o hcount fun p => (hdata p).1, hlane (o + 1) hcount1 fun p => (hdata p).2]
  congr 3
  exact setReg16_reg16 hsorted o v

/-! ### Writes over port registers (R87, R103) -/

theorem andThen_next (o : Host.Outcome State Fault Refusal) : andThen o .next = o := by cases o <;> rfl

theorem execList_singleton (i : Instr) (s : State) : execList [i] s = exec i s := andThen_next _

theorem andThen_assoc (o : Host.Outcome State Fault Refusal) (f g : State → Host.Outcome State Fault Refusal) :
    andThen (andThen o f) g = andThen o fun t => andThen (f t) g := by cases o <;> rfl

theorem execList_append (is js : List Instr) (s : State) :
    execList (is ++ js) s = andThen (execList is s) (execList js) := by
  induction is generalizing s with
  | nil => rfl
  | cons i is ih =>
    rw [List.cons_append, execList, execList, andThen_assoc]
    congr 1
    exact funext ih

/-- An operation that does not read the last result, from a state where it is empty. -/
theorem finish_blind {f : State → Except Refusal State} (hf : ResultBlind f) (s : State) :
    finish (f (s.setResult .none)) = finish (f s) := by
  rw [hf, finish_map_setResult]

theorem portEnable_blind (p : Port) (m : Byte) : ResultBlind fun s => .ok (portEnable p m s) := by
  intro s x
  simp [portEnable, Except.map]

/-- The side effect of a byte of a port register, or of none, is the port operation with the byte stored there. -/
theorem finish_sideEffect {g : Option Reg} (hg : ∀ g1, g = some g1 → wide g1 = false) (r : Region) (o : Nat)
    (s : State) : finish (sideEffect r o g s) = execList (portOperation g (s.byteAt r o)) (s.setResult .none) := by
  match g with
  | none => rfl
  | some (.dir p) =>
    exact ((execList_singleton (.pSetdir p (s.byteAt r o)) _).trans (finish_blind (portSetDir_blind p _) s)).symm
  | some (.data p) =>
    exact ((execList_singleton (.pWritetx p (s.byteAt r o)) _).trans (finish_blind (portWriteTx_blind p _) s)).symm
  | some (.assign p) =>
    exact ((execList_singleton (.pEnable p (~~~(s.byteAt r o))) _).trans (finish_blind (portEnable_blind p _) s)).symm
  | some .tcnt | some (.toc _) | some .tmsk | some .tflg | some .syncr | some .picr | some .pitr => cases hg _ rfl

/-- A word over two registers: the first one's operation, and then the second one's. -/
theorem finish_regionWrite16 {s : State} (hinv : s.Inv) {r : Region} {o : Nat} (heven : o % 2 = 0)
    (hne : regAt s.cfg r o ≠ regAt s.cfg r (o + 1)) (v : Half) : finish (regionWrite16 r o v s) =
      execList (portOperation (regAt s.cfg r o) (hiByte v) ++ portOperation (regAt s.cfg r (o + 1)) (loByte v))
        ((s.setReg16 r o v).setResult .none) := by
  have hc := hinv.config
  have hsorted : s.sorted r := (hinv.storage r).1
  have hnarrow {g : Reg} := not_wide_of_ne hc heven hne (g := g)
  have hstored : storeWord r o v s = s.setReg16 r o v :=
    storeWord_of_ne_tcnt hc heven (fun h => absurd (hnarrow (.inl h)) (by decide)) v
  have hhi : (s.setReg16 r o v).byteAt r o = hiByte v := by simp [setReg16_byteAt hsorted]
  have hlo : (s.setReg16 r o v).byteAt r (o + 1) = loByte v := by simp [setReg16_byteAt hsorted]
  have hfirst := finish_sideEffect (fun g hg => hnarrow (.inl hg)) r o (s.setReg16 r o v)
  rw [hhi] at hfirst
  unfold storeWord at hstored
  simp only [regionWrite16, hstored, hne, if_false]
  rw [execList_append, ← hfirst]
  cases hu : sideEffect r o (regAt s.cfg r o) (s.setReg16 r o v) with
  | error e => rfl
  | ok u =>
    have hsecond := finish_sideEffect (fun g hg => hnarrow (.inr hg)) r (o + 1) u
    rw [(sideEffect_effected hu).byteAt, hlo] at hsecond
    exact hsecond

/-- Settles O17: a byte's side effect is its port operation, a word's the two operations in sequence. -/
theorem wordWriteRunsBothPortRegisters : Obligations.WordWriteRunsBothPortRegisters := by
  rintro r addr s o hinv rfl hin
  refine ⟨fun v hport => ?_, fun v heven hin1 hne => ?_⟩
  · have hnarrow (g : Reg) (hg : regAt s.cfg r (addr.toNat - regionBase s.cfg r) = some g) : wide g = false := by
      rw [hg] at hport
      cases g with
      | dir | data | assign => rfl
      | tcnt | toc | tmsk | tflg | syncr | picr | pitr => exact absurd rfl hport
    rw [exec_w8Of_of_claims hin, regionWrite8_of_ne_tcnt hinv v rfl fun h => absurd (hnarrow _ h) (by decide),
      finish_sideEffect hnarrow, setByte_byteAt_self hinv]
  · rw [exec_w16Of_of_claims heven ⟨hin, hin1⟩,
      finish_regionWrite16 hinv (offset_even hinv.config hin heven) hne]
    rfl

end Sys2Proof.RegionWrites

namespace Sys2Proof.Stepping

/-! PROOFS. The step of the machine (`46_integration.md` R180, R193, R196): what it does with the host's next request, and
the one induction over a `STEP`'s nested operations, with what it gives at once: the configuration and the request level. -/

open Sys2Proof Sys2Proof.Machine Sys2Proof.Encoding Sys2Proof.InterruptArbiter

/-! ### The host's requests (R193, R196) -/

section

variable {s : State} {later : List Request}

theorem fetch_of_nil (h : s.requests = []) : fetch s = .idle := by simp [fetch, h]

theorem fetch_of_word {w : OpWord} {i : Instr} (h : s.requests = .word w :: later) (hw : decode w = .ok i) :
    fetch s = .run i { s with requests := later } := by simp [fetch, h, hw]

theorem fetch_of_replaceHook {p : Port} {k : Hook} (h : s.requests = .replaceHook p k :: later) :
    fetch s = .acted ({ s with requests := later }.setHook p k) := by simp [fetch, h]

theorem fetch_of_setProgramCounter {a : Word} (h : s.requests = .setProgramCounter a :: later) :
    fetch s = .acted { s with requests := later } := by simp [fetch, h]

theorem fetch_of_pulseReset (h : s.requests = .pulseReset :: later) :
    fetch s = .acted { s with requests := later } := by simp [fetch, h]

end

section

variable {s u : State} (hc : s.cfg.WF)

include hc

theorem step_of_idle (h : fetch s = .idle) : step s = .next s := by rw [step, if_pos hc, h]

theorem step_of_run {i : Instr} (h : fetch s = .run i u) : step s = exec i u := by rw [step, if_pos hc, h]

theorem step_of_acted (h : fetch s = .acted u) : step s = .next u := by rw [step, if_pos hc, h]

end

/-- Settles O7: the request's word is decoded, and the step is the instruction's meaning. -/
theorem stepRunsTheDecodedInstruction : Obligations.StepRunsTheDecodedInstruction := by
  intro s w later i hc hreq hw
  exact step_of_run hc (fetch_of_word hreq hw)

/-- Settles O8: each of the other requests is one case of the fetch. -/
theorem stepWithoutAnOperation : Obligations.StepWithoutAnOperation := by
  intro s later
  refine ⟨fun hc hreq => step_of_idle hc (fetch_of_nil hreq), fun hc p k hreq => ?_,
    fun hc a hreq => step_of_acted hc (fetch_of_setProgramCounter hreq),
    fun hc hreq => step_of_acted hc (fetch_of_pulseReset hreq),
    fun hc w e hreq hw => step_of_decode_error hc hreq hw, fun hc => if_neg hc⟩
  refine ⟨_, step_of_acted hc (fetch_of_replaceHook hreq), ?_, fun q hq => ?_, ?_⟩
  · simp
  · rw [setHook_hook, if_neg hq]
    cases q <;> rfl
  · cases p <;> rfl

/-! ### A `STEP` as a run of nested operations (R180) -/

/-- `s` with other values in the fields that `STEP` itself writes: the result, what the engine received and will answer,
the cycle counter and the count of free values. -/
def rebooked (x : Result) (xs : List Result) (e : List EngineRun) (n : BitVec 64) (k : Nat) (s : State) : State :=
  { s with result := x, engineResults := xs, engine := e, cycles := n, freeCount := k }

theorem drawEngine_rebooked (s : State) : ∃ x xs e n k, drawEngine s = rebooked x xs e n k s := by
  unfold drawEngine
  split <;> exact ⟨_, _, _, _, _, rfl⟩

theorem advanceCycles_rebooked (n : Nat) (s : State) : ∃ x xs e m k, advanceCycles n s = rebooked x xs e m k s := by
  unfold advanceCycles
  split <;> exact ⟨_, _, _, _, _, rfl⟩

/-- A nested operation is the operation it is, and then its result is handed over. -/
theorem engineStep_next {op : EngineOp} {s t : State} (h : engineStep op s = .next t) :
    ∃ u, exec op.toInstr s = .next u ∧ t = { u with result := .none, engineResults := u.engineResults ++ [u.result] } := by
  unfold engineStep at h
  rw [engineOutcome_eq_exec] at h
  split at h
  next u hu => cases h; exact ⟨u, hu, rfl⟩
  next => cases h
  next => cases h

theorem engineSteps_cons_next {op : EngineOp} {ops : List EngineOp} {s t : State}
    (h : engineSteps (op :: ops) s = .next t) : ∃ u, engineStep op s = .next u ∧ engineSteps ops u = .next t := by
  unfold engineSteps at h
  split at h
  next u hu => exact ⟨u, hu, h⟩
  next => cases h
  next => cases h

theorem exec_sysStep_next {s t : State} (h : exec .sysStep s = .next t) :
    ∃ u, engineSteps (engineAnswer s).ops (drawEngine s) = .next u ∧
      retire (engineAnswer s).cycles u = .next t := by
  change execSysStep s = .next t at h
  unfold execSysStep at h
  split at h
  next u hu => exact ⟨u, hu, h⟩
  next => cases h
  next => cases h

/-- The operations an engine may issue are neither `STEP` nor `RESET`. -/
theorem toInstr_ne (op : EngineOp) : op.toInstr ≠ .sysStep ∧ op.toInstr ≠ .sysReset := by
  cases op <;> exact ⟨nofun, nofun⟩

/-- What is kept by every other operation, by the exec steps, and by writing the fields of `STEP`, a `STEP` keeps. -/
theorem sysStep_keeps {P : State → Prop} (hbook : ∀ x xs e n k s, P s → P (rebooked x xs e n k s))
    (hexec : ∀ i s t, i ≠ .sysStep → P s → exec i s = .next t → P t)
    (hall : ∀ d s t, P s → execAll d s = .ok t → P t) {s t : State} (hs : P s) (h : exec .sysStep s = .next t) : P t := by
  have hsteps (ops : List EngineOp) (u v : State) (hu : P u) (hv : engineSteps ops u = .next v) : P v := by
    induction ops generalizing u with
    | nil => cases hv; exact hu
    | cons op ops ih =>
      obtain ⟨w, hw, hv⟩ := engineSteps_cons_next hv
      obtain ⟨w1, hw1, rfl⟩ := engineStep_next hw
      exact ih _ (hbook _ _ w1.engine w1.cycles w1.freeCount _ (hexec _ _ _ (toInstr_ne op).1 hu hw1)) hv
  obtain ⟨u, hu, ht⟩ := exec_sysStep_next h
  obtain ⟨x, xs, e, n, k, hdraw⟩ := drawEngine_rebooked s
  have hPu := hsteps _ _ _ (hdraw ▸ hbook x xs e n k s hs) hu
  obtain ⟨v, hv, rfl⟩ := finish_next.mp ht
  obtain ⟨x1, xs1, e1, n1, k1, hadvance⟩ := advanceCycles_rebooked (engineAnswer s).cycles u
  have hPv := hall _ _ v (hadvance ▸ hbook x1 xs1 e1 n1 k1 u hPu) hv
  exact hbook .none v.engineResults v.engine v.cycles v.freeCount v hPv

/-- A `STEP` aside, an operation is an acknowledge, `RESET`, or one that `Untaken` covers. -/
theorem exec_cases {P : State → Prop} (hack : ∀ lvl s t, P s → exec (.ack lvl) s = .next t → P t)
    (hreset : ∀ s t, P s → exec .sysReset s = .next t → P t)
    (huntaken : ∀ i s t, i ≠ .sysStep → P s → exec i s = .next t → Untaken s t → P t) {i : Instr} {s t : State}
    (hi : i ≠ .sysStep) (hs : P s) (h : exec i s = .next t) : P t := by
  by_cases ha : ∃ lvl : Level, i = .ack lvl
  · obtain ⟨lvl, rfl⟩ := ha
    exact hack lvl s t hs h
  · by_cases hr : i = .sysReset
    · subst hr
      exact hreset s t hs h
    · exact huntaken i s t hi hs h (untaken_exec (not_exists.mp ha) hr hi h)

/-- An acknowledge: nothing, or a vector taken and then the listeners. -/
theorem exec_ack_cases {lvl : Level} {s t : State} (h : exec (.ack lvl) s = .next t) :
    ∃ v u, t = u.setResult v ∧ (u = s ∨ ∃ rest, u.irq = highest u.queue ∧
      Reacted ((s.setQueue lvl rest).log (.irqLine 0)) u) := by
  obtain ⟨v, u, hu, rfl⟩ := exec_ack_next.mp h
  refine ⟨_, u, rfl, ?_⟩
  cases hv : s.queue[lvl] with
  | nil =>
    rw [ackLevel_empty hv] at hu
    cases hu
    exact .inl rfl
  | cons vec rest =>
    obtain ⟨-, hirq, -⟩ := ackLevel_ok hv hu
    exact .inr ⟨rest, hirq, ackLevel_reacted hv hu⟩

/-! ### The configuration (R4, R243) -/

/-- Settles O12: `Untaken` has it, and so have the listeners of an acknowledge; `RESET` and `STEP` write other fields. -/
theorem noOperationChangesTheConfiguration : Obligations.NoOperationChangesTheConfiguration := by
  intro i s t h
  have hexec (i : Instr) (u v : State) (hi : i ≠ .sysStep) (hu : u.cfg = s.cfg) (hv : exec i u = .next v) :
      v.cfg = s.cfg := by
    refine exec_cases (P := fun u => u.cfg = s.cfg) (fun lvl u v hu hv => ?_) (fun u v hu hv => ?_)
      (fun i u v _ hu _ huv => huv.cfg.trans hu) hi hu hv
    · obtain ⟨x, w, rfl, rfl | ⟨rest, -, hr⟩⟩ := exec_ack_cases hv
      · exact hu
      · exact hr.cfg.trans hu
    · cases hv; exact hu
  by_cases hi : i = .sysStep
  · subst hi
    exact sysStep_keeps (P := fun u => u.cfg = s.cfg) (fun _ _ _ _ _ _ hu => hu) hexec
      (fun _ _ _ hu hv => (untaken_execAll hv).cfg.trans hu) rfl h
  · exact hexec i s t hi rfl h

/-! ### The request level (R155) -/

/-- The request level is the highest level with something pending. -/
def Requests (s : State) : Prop := s.irq = highest s.queue

theorem requests_iff {s : State} : Requests s ↔
    (∀ l : Level, s.irq < l → s.queue[l] = []) ∧ (s.irq ≠ 0 → s.queue[s.irq] ≠ []) :=
  eq_comm.trans highest_eq_iff

theorem requests_of_untaken {s t : State} (hs : Requests s) (h : Untaken s t) : Requests t := by
  obtain ⟨hqueue, hirq⟩ | hlevel := h.irq
  · rw [Requests, hirq, hqueue]; exact hs
  · exact hlevel

theorem requests_exec {i : Instr} {s t : State} (hs : Requests s) (h : exec i s = .next t) : Requests t := by
  have hexec (i : Instr) (u v : State) (hi : i ≠ .sysStep) (hu : Requests u) (hv : exec i u = .next v) :
      Requests v := by
    refine exec_cases (fun lvl u v hu hv => ?_) (fun u v hu hv => ?_)
      (fun i u v _ hu _ huv => requests_of_untaken hu huv) hi hu hv
    · obtain ⟨x, w, rfl, rfl | ⟨rest, hirq, -⟩⟩ := exec_ack_cases hv
      · exact hu
      · exact hirq
    · cases hv; rfl
  by_cases hi : i = .sysStep
  · subst hi
    exact sysStep_keeps (fun _ _ _ _ _ _ hu => hu) hexec
      (fun _ _ _ hu hv => requests_of_untaken hu (untaken_execAll hv)) hs h
  · exact hexec i s t hi hs h

/-- Settles O11: the level follows the queues through every operation (`Untaken.irq`, the acknowledge's rescan). -/
theorem requestLevelIsTheHighestPending : Obligations.RequestLevelIsTheHighestPending := by
  refine ⟨fun c => ⟨rfl, fun l => ?_⟩, fun i s t hs h => requests_iff.mp (requests_exec (requests_iff.mpr hs) h)⟩
  fin_cases l <;> rfl

end Sys2Proof.Stepping

namespace Sys2Proof.Invariant

/-! PROOFS. The invariant (`10_state.md`; `State.Inv`): the storages, accumulators and derived clock values of a good state
stay good through every operation, the request level by `Requests`; and the reset state is good. -/

open Sys2Proof Sys2Proof.Machine Sys2Proof.Encoding Sys2Proof.RegionAccess Sys2Proof.PortAccess
  Sys2Proof.NamedRegisters Sys2Proof.TimerRegisters Sys2Proof.TimerExec Sys2Proof.ClockPit Sys2Proof.BusDispatch Sys2Proof.InterruptArbiter
  Sys2Proof.Integration Sys2Proof.RegisterDecode Sys2Proof.RegionWrites Sys2Proof.Stepping

/-! ### The parts of the invariant -/

/-- The configuration, the storages and the accumulators of a good state: what storing a byte inside a window keeps. -/
structure Sound (s : State) : Prop where
  config : s.cfg.WF
  storage : ∀ r : Region, Memory.wf (imageByte s.cfg r) (regionSize r) (s.stor r)
  accumulators : ∀ k : Channel, i32Min ≤ s.acc[k] ∧ s.acc[k] ≤ i32Max

/-- The system clock agrees with `SYNCR` (R132). -/
def ClockAgrees (s : State) : Prop := s.sysclk = clockOf s.cfg (s.reg16 .sys s.cfg.sSyncr)

/-- The clock and the periodic timer of a good state: what only `SYNCR`, `PICR` and `PITR` decide. -/
structure Timed (s : State) : Prop where
  clock : ClockAgrees s
  load : s.pitLoad = pitLoadNow s
  loadRange : s.pitLoad ≤ i32Max
  count : i32Min ≤ s.pitCur ∧ s.pitCur ≤ s.pitLoad

/-- The invariant but for the request level. -/
structure Good (s : State) : Prop extends Sound s, Timed s

theorem inv_iff {s : State} : s.Inv ↔ Good s ∧ Requests s :=
  ⟨fun h => ⟨⟨⟨h.config, h.storage, h.accumulators⟩, ⟨h.clock, h.load, h.loadRange, h.count⟩⟩, h.request⟩,
    fun ⟨h, hr⟩ => ⟨h.config, h.storage, hr, h.accumulators, h.clock, h.load, h.loadRange, h.count⟩⟩

theorem good_of_inv {s : State} (h : s.Inv) : Good s := (inv_iff.mp h).1

theorem Sound.sorted {s : State} (h : Sound s) (r : Region) : s.sorted r := (h.storage r).1

/-! ### Updates of other fields, and of the accumulators -/

section

variable {s t : State}

theorem sound_congr (h : Sound s) (hcfg : t.cfg = s.cfg) (hstor : ∀ r, t.stor r = s.stor r)
    (hacc : ∀ k : Channel, i32Min ≤ t.acc[k] ∧ t.acc[k] ≤ i32Max) : Sound t where
  config := hcfg ▸ h.config
  storage r := by rw [hcfg, hstor]; exact h.storage r
  accumulators := hacc

theorem clockAgrees_congr (h : ClockAgrees s) (hcfg : t.cfg = s.cfg) (hclk : t.sysclk = s.sysclk)
    (hword : t.reg16 .sys s.cfg.sSyncr = s.reg16 .sys s.cfg.sSyncr) : ClockAgrees t := by
  rw [ClockAgrees, hclk, hcfg, hword]
  exact h

theorem timed_congr (h : Timed s) (hcfg : t.cfg = s.cfg) (hclk : SameClock s t)
    (hsyncr : t.reg16 .sys s.cfg.sSyncr = s.reg16 .sys s.cfg.sSyncr)
    (hpicr : t.reg16 .sys s.cfg.sPicr = s.reg16 .sys s.cfg.sPicr)
    (hpitr : t.reg16 .sys s.cfg.sPitr = s.reg16 .sys s.cfg.sPitr) : Timed t := by
  obtain ⟨hsysclk, hload, hcur⟩ := hclk
  have hnow : pitLoadNow t = pitLoadNow s := by rw [pitLoadNow, pitLoadNow, hcfg, hsysclk, hpicr, hpitr]
  exact ⟨clockAgrees_congr h.clock hcfg hsysclk hsyncr, by rw [hload, hnow, h.load], hload ▸ h.loadRange,
    by rw [hcur, hload]; exact h.count⟩

theorem good_congr_acc (h : Good s) (hcfg : t.cfg = s.cfg) (hstor : ∀ r, t.stor r = s.stor r)
    (hacc : ∀ k : Channel, i32Min ≤ t.acc[k] ∧ t.acc[k] ≤ i32Max) (hclk : SameClock s t) : Good t :=
  have hword := sameStorage_reg16 (sameStorage_of_stor hcfg hstor)
  ⟨sound_congr h.toSound hcfg hstor hacc, timed_congr h.toTimed hcfg hclk (hword ..) (hword ..) (hword ..)⟩

theorem good_congr (h : Good s) (hcfg : t.cfg = s.cfg) (hstor : ∀ r, t.stor r = s.stor r) (hacc : t.acc = s.acc)
    (hclk : SameClock s t) : Good t :=
  good_congr_acc h hcfg hstor (by rw [hacc]; exact h.accumulators) hclk

end

theorem good_of_reacted {s t : State} (hr : Reacted s t) (h : Good s) : Good t :=
  good_congr h hr.cfg hr.stor hr.acc ⟨hr.sysclk, hr.pitLoad, hr.pitCur⟩

theorem good_setPort {s : State} (h : Good s) (p : Port) (v : PortState) : Good (s.setPort p v) :=
  good_congr h (by simp) (by simp) (by simp) (by simp [SameClock])

theorem good_setResult {s : State} (h : Good s) (x : Result) : Good (s.setResult x) :=
  good_congr h rfl (by simp) rfl ⟨rfl, rfl, rfl⟩

theorem good_rebooked (x : Result) (xs : List Result) (e : List EngineRun) (n : BitVec 64) (k : Nat) {s : State}
    (h : Good s) : Good (rebooked x xs e n k s) :=
  good_congr h rfl (fun r => by cases r <;> rfl) rfl ⟨rfl, rfl, rfl⟩

theorem good_bumpWriteCounter {s : State} (h : Good s) (p : Port) : Good (bumpWriteCounter p s) := by
  obtain ⟨w, n, hbump, -⟩ := bumpWriteCounter_eq p s
  rw [hbump]
  exact good_congr (good_setPort h p { s.port p with writeCounter := w }) rfl (fun r => by cases r <;> rfl) rfl
    ⟨rfl, rfl, rfl⟩

/-- A channel's accumulator takes another `i32`. -/
theorem good_setAcc {s : State} (h : Good s) (k : Channel) {a : Int} (ha : i32Min ≤ a ∧ a ≤ i32Max) :
    Good (s.setAcc k a) := by
  refine good_congr_acc h rfl (fun _ => setAcc_stor ..) (fun j => ?_) ⟨rfl, rfl, rfl⟩
  rw [setAcc_getElem]
  split
  · exact ha
  · exact h.accumulators j

/-! ### The ports and the timers (R90 to R92, R114, R118, R135) -/

theorem good_portSetDir {p : Port} {m : Byte} {s t : State} (hs : Good s) (h : portSetDir p m s = .ok t) : Good t :=
  good_of_reacted (emit_reacted' h) (good_setPort hs p _)

theorem good_portWriteTx {p : Port} {b : Byte} {s t : State} (hs : Good s) (h : portWriteTx p b s = .ok t) : Good t :=
  good_of_reacted (emit_reacted' h) (good_bumpWriteCounter (good_setPort hs p _) p)

theorem good_resync {s : State} (h : Good s) (k : Channel) : Good (resync k s) := by
  obtain ⟨hlow, -, -⟩ := resyncValue_bounds (s.target k) s.acc[k]
  have hhigh := resyncValue_lt_wrapCycles s k s.acc[k]
  have htarget : s.target k = 4 * (s.reg16 .timer s.cfg.tToc[k]).toNat := targetCycles_eq _
  refine good_setAcc h k ?_
  simp only [wrapCycles, i32Min, i32Max] at *
  omega

theorem good_resyncAll {s : State} (h : Good s) : Good (resyncAll s) :=
  good_resync (good_resync (good_resync (good_resync h 0) 1) 2) 3

theorem sound_setFlag {s : State} (h : Sound s) (k : Channel) : Sound (s.setFlag k) := by
  obtain ⟨m, hframe⟩ := setFlag_frame s k
  have hcov (o : Nat) (ho : o = s.cfg.tTflg ∨ o = s.cfg.tTflg + 1) : o < regionSize .timer :=
    covers_lt h.config (r := .timer) (g := .tflg) ho
  refine ⟨by rw [setFlag_cfg]; exact h.config, ?_, by rw [hframe]; exact h.accumulators⟩
  exact setByte_wf (setByte_wf h.storage (hcov _ (.inl rfl)) _) (hcov _ (.inr rfl)) _

theorem good_setFlag {s : State} (h : Good s) (k : Channel) : Good (s.setFlag k) := by
  obtain ⟨m, hframe⟩ := setFlag_frame s k
  have hword (o : Nat) : (s.setFlag k).reg16 .sys o = s.reg16 .sys o := by rw [hframe]; rfl
  exact ⟨sound_setFlag h.toSound k, timed_congr h.toTimed (setFlag_cfg s k) (by rw [hframe]; exact ⟨rfl, rfl, rfl⟩) (hword _)
    (hword _) (hword _)⟩

theorem good_advance {s : State} (h : Good s) {d : Nat} {k : Channel} (hle : s.acc[k] + d ≤ i32Max) :
    Good (advance d k s) := by
  have hacc : Good (s.setAcc k (s.acc[k] + d)) :=
    good_setAcc h k ⟨(h.accumulators k).1.trans (by omega), hle⟩
  unfold advance
  split
  · exact good_setFlag hacc k
  · exact hacc

theorem good_execChannels {d : Nat} {ks : List Channel} {s t : State} (hs : Good s)
    (h : execChannels d ks s = .ok t) : Good t := by
  induction ks generalizing s with
  | nil => cases h; exact hs
  | cons k ks ih =>
    rw [execChannels] at h
    split at h
    next => cases h
    next u hu => exact ih (good_of_reacted (execChannel_reacted hu) (good_advance hs (execChannel_ok hu).1)) h

theorem good_timerExec {d : Nat} {s t : State} (hs : Good s) (h : timerExec d s = .ok t) : Good t := by
  unfold timerExec at h
  split at h
  next => cases h
  next =>
    split at h
    next => exact good_execChannels hs h
    next =>
      obtain ⟨u, hr, rfl⟩ := legacyExec_ok h
      exact good_congr (good_of_reacted hr hs) rfl (fun r => by cases r <;> rfl) rfl ⟨rfl, rfl, rfl⟩

/-- The count takes another value between the least `i32` and the load value (R137). -/
theorem good_setPitCur {s : State} (h : Good s) {c : Int} (hc : i32Min ≤ c ∧ c ≤ s.pitLoad) :
    Good { s with pitCur := c } := by
  exact ⟨sound_congr h.toSound rfl (fun r => by cases r <;> rfl) h.accumulators,
    ⟨h.clock, h.load, h.loadRange, hc⟩⟩

theorem load_nonneg {s : State} (h : Good s) : 0 ≤ s.pitLoad := by
  rw [h.load]
  exact pitLoadOf_nonneg ..

theorem good_clockExec {d : Nat} {s t : State} (hs : Good s) (h : clockExec d s = .ok t) : Good t := by
  obtain ⟨hlow, hhigh⟩ := hs.count
  have hload := load_nonneg hs
  obtain ⟨-, ⟨-, rfl⟩ | ⟨-, hrange, -, rfl⟩ | ⟨-, hrange, hfire, u, hu, rfl⟩⟩ := clockExec_ok h
  · exact hs
  · exact good_setPitCur hs ⟨hrange, by omega⟩
  · have hcount : Good { s with pitCur := s.pitCur - d } := good_setPitCur hs ⟨hrange, by omega⟩
    have hr : Reacted { s with pitCur := s.pitCur - d } u := raiseOnce_reacted hu
    have hcur : u.pitCur = s.pitCur - d := hr.pitCur
    have hloadu : u.pitLoad = s.pitLoad := hr.pitLoad
    exact good_setPitCur (good_of_reacted hr hcount) ⟨by omega, by omega⟩

theorem good_execAll {d : Nat} {s t : State} (hs : Good s) (h : execAll d s = .ok t) : Good t := by
  unfold execAll at h
  split at h
  next => cases h
  next =>
    split at h
    next => cases h
    next u hu => exact good_clockExec (good_timerExec hs hu) h

/-! ### Restarting the periodic timer (R132, R134) -/

theorem good_pitRecompute {s t : State} (hs : Sound s) (hclock : ClockAgrees s) (h : pitRecompute s = .ok t) :
    Good t := by
  obtain ⟨hle, rfl⟩ := pitRecompute_ok h
  have hnonneg : 0 ≤ pitLoadNow s := pitLoadOf_nonneg ..
  exact ⟨sound_congr hs rfl (fun r => by cases r <;> rfl) hs.accumulators,
    ⟨hclock, rfl, hle, ⟨le_trans (by decide) hnonneg, le_rfl⟩⟩⟩

theorem good_clockUpdate {s t : State} (hs : Sound s) (h : clockUpdate s = .ok t) : Good t :=
  good_pitRecompute (s := { s with sysclk := clockOf s.cfg (s.reg16 .sys s.cfg.sSyncr) })
    (sound_congr hs rfl (fun r => by cases r <;> rfl) hs.accumulators) rfl h

/-! ### Writes (R84, R85, R87) -/

/-- The registers whose write restarts the periodic timer. -/
def Restarts (g : Option Reg) : Prop := g = some .syncr ∨ g = some .picr ∨ g = some .pitr

/-- A write to `SYNCR` sets the clock anew; to `PICR` or `PITR`, the load value; any other side effect starts from a
good state. -/
theorem good_sideEffect {r : Region} {o : Nat} {g : Option Reg} {s t : State} (hs : Sound s)
    (hclock : g ≠ some .syncr → ClockAgrees s) (htimed : ¬ Restarts g → Timed s) (h : sideEffect r o g s = .ok t) :
    Good t := by
  have hgood (hg : ¬ Restarts g) : Good s := ⟨hs, htimed hg⟩
  unfold sideEffect at h
  split at h
  next p => exact good_portSetDir (hgood (by simp [Restarts])) h
  next p => exact good_portWriteTx (hgood (by simp [Restarts])) h
  next p => cases h; exact good_setPort (hgood (by simp [Restarts])) p _
  next k =>
    have := hgood (by simp [Restarts])
    split at h <;> cases h
    exacts [good_resync this k, this]
  next =>
    have := hgood (by simp [Restarts])
    split at h <;> cases h
    exacts [good_resyncAll this, this]
  next => exact good_clockUpdate hs h
  next => exact good_pitRecompute hs (hclock nofun) h
  next => exact good_pitRecompute hs (hclock nofun) h
  all_goals cases h; exact hgood (by simp [Restarts])

section

variable {s : State} {r : Region} {o : Nat} (b : Byte)

theorem sound_storeByte (h : Sound s) (ho : o < regionSize r) : Sound (storeByte r o b s) := by
  unfold storeByte
  split
  · exact h
  · refine ⟨by rw [setByte_cfg]; exact h.config, setByte_wf h.storage ho b, ?_⟩
    rw [setByte_eq, setStor_acc]
    exact h.accumulators

/-- A byte that is none of a 16-bit register's leaves it as it was. -/
theorem storeByte_reg16 {r1 : Region} {g : Reg} {x : Nat} (hs : s.sorted r1) (hr : s.sorted r)
    (hat : HalfAt s.cfg r1 g x) (h : regAt s.cfg r o ≠ some g) :
    (storeByte r o b s).reg16 r1 x = s.reg16 r1 x := by
  have hlane (lo : Bool) : ¬ (r1 = r ∧ x + lo.toNat = o) := by
    rintro ⟨rfl, rfl⟩
    exact h (hat lo)
  have h0 := hlane false
  have h1 := hlane true
  by_cases he : r1 = r
  · subst he
    rw [State.reg16, State.reg16, storeByte_byteAt hs, storeByte_byteAt hs, if_neg fun hn => h0 hn.1,
      if_neg fun hn => h1 hn.1]
  · obtain ⟨m, hm⟩ := storeByte_frame r o b s
    simp [hm, State.reg16, State.byteAt, he]

theorem clockAgrees_storeByte (h : Sound s) (hclock : ClockAgrees s) (hg : regAt s.cfg r o ≠ some .syncr) :
    ClockAgrees (storeByte r o b s) := by
  obtain ⟨hsyncr, -, -⟩ := sys_halfAt h.config
  obtain ⟨m, hm⟩ := storeByte_frame r o b s
  exact clockAgrees_congr hclock (storeByte_cfg ..) (by rw [hm, setStor_sysclk])
    (storeByte_reg16 b (h.sorted _) (h.sorted _) hsyncr hg)

theorem timed_storeByte (h : Sound s) (htimed : Timed s) (hg : ¬ Restarts (regAt s.cfg r o)) :
    Timed (storeByte r o b s) := by
  obtain ⟨hsyncr, hpicr, hpitr⟩ := sys_halfAt h.config
  obtain ⟨hg1, hg2, hg3⟩ : regAt s.cfg r o ≠ some .syncr ∧ regAt s.cfg r o ≠ some .picr ∧
      regAt s.cfg r o ≠ some .pitr := by simpa [Restarts] using hg
  obtain ⟨m, hm⟩ := storeByte_frame r o b s
  have hword {g : Reg} {x : Nat} (hat : HalfAt s.cfg .sys g x) (hne : regAt s.cfg r o ≠ some g) :=
    storeByte_reg16 b (h.sorted .sys) (h.sorted r) hat hne
  refine timed_congr htimed (storeByte_cfg ..) ?_ (hword hsyncr hg1) (hword hpicr hg2) (hword hpitr hg3)
  rw [hm]
  simp [SameClock]

end

theorem good_regionWrite8 {r : Region} {o : Nat} {v : Byte} {s t : State} (hs : Good s) (ho : o < regionSize r)
    (h : regionWrite8 r o v s = .ok t) : Good t :=
  good_sideEffect (sound_storeByte v hs.toSound ho) (clockAgrees_storeByte v hs.toSound hs.clock)
    (timed_storeByte v hs.toSound hs.toTimed) h

theorem good_regionWrite16 {r : Region} {o : Nat} {v : Half} {s t : State} (hs : Good s) (heven : o % 2 = 0)
    (ho : o + 1 < regionSize r) (h : regionWrite16 r o v s = .ok t) : Good t := by
  have hhi : Sound (storeByte r o (hiByte v) s) := sound_storeByte _ hs.toSound (by omega)
  have hsound : Sound (storeWord r o v s) := sound_storeByte _ hhi ho
  have hclock (h0 : regAt s.cfg r o ≠ some .syncr) (h1 : regAt s.cfg r (o + 1) ≠ some .syncr) :
      ClockAgrees (storeWord r o v s) :=
    clockAgrees_storeByte _ hhi (clockAgrees_storeByte _ hs.toSound hs.clock h0) (by rwa [storeByte_cfg])
  have htimed (h0 : ¬ Restarts (regAt s.cfg r o)) (h1 : ¬ Restarts (regAt s.cfg r (o + 1))) :
      Timed (storeWord r o v s) :=
    timed_storeByte _ hhi (timed_storeByte _ hs.toSound hs.toTimed h0) (by rwa [storeByte_cfg])
  obtain ⟨he, heffect⟩ | ⟨hne, u, hfirst, hsecond⟩ := regionWrite16_ok h
  · exact good_sideEffect hsound (fun h0 => hclock h0 (he ▸ h0)) (fun h0 => htimed h0 (he ▸ h0)) heffect
  · have hnarrow {g : Reg} := not_wide_of_ne hs.config heven hne (g := g)
    have hstays : ¬ Restarts (regAt s.cfg r o) ∧ ¬ Restarts (regAt s.cfg r (o + 1)) := by
      refine ⟨?_, ?_⟩ <;> rintro (hg | hg | hg)
      any_goals exact absurd (hnarrow (.inl hg)) (by decide)
      all_goals exact absurd (hnarrow (.inr hg)) (by decide)
    have htimed := htimed hstays.1 hstays.2
    have hu := good_sideEffect hsound (fun _ => htimed.clock) (fun _ => htimed) hfirst
    exact good_sideEffect hu.toSound (fun _ => hu.clock) (fun _ => hu.toTimed) hsecond

theorem claims_of_route {c : Cfg} {r : Region} {a : Nat} (h : route c a = some r) : Claims c r a := by
  unfold route at h
  split_ifs at h with hT hS hQ <;> cases h
  exacts [inRange_iff.mp hT, inRange_iff.mp hS, inRange_iff.mp hQ]

theorem good_busWrite8 {addr : Word} {v : Byte} {s t : State} (hs : Good s) (h : busWrite8 addr v s = .ok t) :
    Good t := by
  unfold busWrite8 at h
  split at h
  next => cases h; exact hs
  next r hr =>
    obtain ⟨hlo, hhi⟩ := claims_of_route hr
    exact good_regionWrite8 hs (by unfold offsetIn; omega) h

theorem good_busWrite16 {addr : Word} {v : Half} {s t : State} (hs : Good s) (h : busWrite16 addr v s = .ok t) :
    Good t := by
  unfold busWrite16 at h
  split at h
  next => cases h; exact hs
  next r hr =>
    split at h
    next => cases h
    next hodd =>
      have hin := claims_of_route hr
      have heven : busMask addr % 2 = 0 := by omega
      have hin1 := claims_succ hs.config heven hin
      have hlo := hin.1
      have hhi := hin1.2
      exact good_regionWrite16 hs (offset_even hs.config hin heven) (by omega) h

theorem good_busWrite32 {addr v : Word} {s t : State} (hs : Good s) (h : busWrite32 addr v s = .ok t) : Good t := by
  unfold busWrite32 at h
  split at h
  next => cases h
  next u hu => exact good_busWrite16 (good_busWrite16 hs hu) h

/-! ### The operations -/

theorem good_finish {t : State} {o : Except Refusal State} (ho : ∀ u, o = .ok u → Good u)
    (h : finish o = .next t) : Good t := by
  obtain ⟨u, hu, rfl⟩ := finish_next.mp h
  exact good_setResult (ho u hu) _

theorem good_answer {s t : State} (hs : Good s) {o : Except Refusal Result} (h : answer s o = .next t) : Good t := by
  obtain ⟨x, -, rfl⟩ := answer_next.mp h
  exact good_setResult hs x

section

variable {r : Region} {addr : Word} {s t : State} (hs : Good s)

include hs

theorem good_regionR8 (h : regionR8 r addr s = .next t) : Good t := by
  unfold regionR8 at h
  split at h <;> cases h
  exact good_setResult hs _

theorem good_regionR16 (h : regionR16 r addr s = .next t) : Good t := by
  unfold regionR16 at h
  split_ifs at h
  next => cases h; exact good_setResult hs _

theorem good_regionW8 {v : Byte} (h : regionW8 r addr v s = .next t) : Good t := by
  rw [← exec_w8Of] at h
  by_cases hin : Claims s.cfg r addr.toNat
  · rw [exec_w8Of_of_claims hin] at h
    obtain ⟨hlo, hhi⟩ := hin
    exact good_finish (fun u => good_regionWrite8 hs (by omega)) h
  · rw [exec_w8Of_outside hin] at h
    cases h

theorem good_regionW16 {v : Half} (h : regionW16 r addr v s = .next t) : Good t := by
  rw [← exec_w16Of] at h
  obtain ⟨⟨heven, hin, hin1⟩, u, hu, rfl⟩ := exec_w16Of_next h
  have hlo := hin.1
  have hhi := hin1.2
  exact good_setResult (good_regionWrite16 hs (offset_even hs.config hin heven) (by omega) hu) _

theorem good_accessRegister {n : RegName} {acc : RegAccess} (h : accessRegister n acc s = .next t) : Good t := by
  cases acc with
  | read8 lo => cases h; exact good_setResult hs _
  | write8 lo v => exact good_finish (fun _ => good_busWrite8 hs) h
  | read16 => exact good_answer hs h
  | write16 v => exact good_finish (fun _ => good_busWrite16 hs) h

end

theorem good_ack {lvl : Level} {s t : State} (hs : Good s) (h : exec (.ack lvl) s = .next t) : Good t := by
  obtain ⟨x, u, rfl, rfl | ⟨rest, -, hr⟩⟩ := exec_ack_cases h
  · exact good_setResult hs x
  · have hpopped : Good (s.setQueue lvl rest) := good_congr hs rfl (fun _ => setQueue_stor ..) rfl ⟨rfl, rfl, rfl⟩
    exact good_setResult (good_of_reacted ((reacted_log _ _).trans hr) hpopped) x

/-! ### The reset state (R36, R221) -/

theorem boot_byteAt (c : Cfg) (r : Region) (o : Nat) : (State.boot c).byteAt r o = imageByte c r o := by
  cases r <;> rfl

theorem boot_reg16 (c : Cfg) (r : Region) (o : Nat) : (State.boot c).reg16 r o = imageHalf c r o := by
  rw [State.reg16, boot_byteAt, boot_byteAt, imageHalf]

theorem good_boot {c : Cfg} (hc : c.WF) : Good (State.boot c) := by
  obtain ⟨-, -, -, -, -, -, hload⟩ := id hc
  refine ⟨⟨hc, fun r => ?_, fun k => ?_⟩, ⟨?_, ?_, hload, ?_, le_rfl⟩⟩
  · cases r <;> exact memory_nil_wf _ _
  · have hzero : (State.boot c).acc[k] = 0 := by fin_cases k <;> rfl
    rw [hzero]
    decide
  · exact congrArg (clockOf c) (boot_reg16 c .sys c.sSyncr).symm
  · change resetPitLoad c = pitLoadOf c _ _ _
    rw [boot_reg16, boot_reg16]
    rfl
  · exact le_trans (by decide) (pitLoadOf_nonneg ..)

theorem good_reset {s t : State} (hs : Good s) (h : exec .sysReset s = .next t) : Good t := by
  cases h
  exact good_congr (good_boot hs.config) rfl (fun r => by cases r <;> rfl) rfl ⟨rfl, rfl, rfl⟩

/-! ### Every operation and every step -/

theorem good_exec_of_ne {i : Instr} {s t : State} (hstep : i ≠ .sysStep) (hs : Good s) (h : exec i s = .next t) :
    Good t := by
  cases i with
  | sysStep => exact absurd rfl hstep
  | sysReset => exact good_reset hs h
  | ack => exact good_ack hs h
  | read16 | read32 | fetch16 | fetch32 => exact good_answer hs h
  | read8 | pRead | haspend | illegal | resethook | resetpc | resetsp | qExec | rgnInrangeT | rgnInrangeS
  | rgnInrangeQ => cases h; exact good_setResult hs _
  | pWriterx | pEnable => cases h; exact good_setResult (good_setPort hs _ _) _
  | write8 => exact good_finish (fun _ => good_busWrite8 hs) h
  | write16 => exact good_finish (fun _ => good_busWrite16 hs) h
  | write32 => exact good_finish (fun _ => good_busWrite32 hs) h
  | rgnR8T | rgnR8S | rgnR8Q => exact good_regionR8 hs h
  | rgnR16T | rgnR16S | rgnR16Q => exact good_regionR16 hs h
  | rgnW8T | rgnW8S | rgnW8Q => exact good_regionW8 hs h
  | rgnW16T | rgnW16S | rgnW16Q => exact good_regionW16 hs h
  | pSetdir => exact good_finish (fun _ => good_portSetDir hs) h
  | pWritetx => exact good_finish (fun _ => good_portWriteTx hs) h
  | inject => exact good_finish (fun _ hu => good_of_reacted (injectVector_ok hu).1 hs) h
  | sysExec => exact good_finish (fun _ => good_execAll hs) h
  | tExec => exact good_finish (fun _ => good_timerExec hs) h
  | sExec => exact good_finish (fun _ => good_clockExec hs) h
  | ddrgp | portgp | tcnt | toc1 | toc2 | toc3 | toc4 | tmsk | tflg | syncr | porte0 | porte1 | ddre | pepar
  | portf0 | portf1 | ddrf | pfpar | picr | pitr => exact good_accessRegister hs h

theorem good_exec {i : Instr} {s t : State} (hs : Good s) (h : exec i s = .next t) : Good t := by
  by_cases hi : i = .sysStep
  · subst hi
    exact sysStep_keeps (fun x xs e n k _ => good_rebooked x xs e n k)
      (fun _ _ _ hi hu => good_exec_of_ne hi hu) (fun _ _ _ => good_execAll) hs h
  · exact good_exec_of_ne hi hs h

/-- Every operation keeps a good state good. -/
theorem inv_exec {i : Instr} {s t : State} (hs : s.Inv) (h : exec i s = .next t) : t.Inv := by
  obtain ⟨hgood, hreq⟩ := inv_iff.mp hs
  exact inv_iff.mpr ⟨good_exec hgood h, requests_exec hreq h⟩

/-- The request taken off the list, and the hook replaced, are no part of the invariant. -/
theorem inv_setRequests {s : State} (hs : s.Inv) (later : List Request) : ({ s with requests := later } : State).Inv := by
  obtain ⟨hgood, hreq⟩ := inv_iff.mp hs
  exact inv_iff.mpr ⟨good_congr hgood rfl (fun r => by cases r <;> rfl) rfl ⟨rfl, rfl, rfl⟩, hreq⟩

theorem inv_setHook {s : State} (hs : s.Inv) (p : Port) (k : Hook) : (s.setHook p k).Inv := by
  obtain ⟨hgood, hreq⟩ := inv_iff.mp hs
  have hr := reacted_setHook s p k
  exact inv_iff.mpr ⟨good_of_reacted hr hgood, requests_of_untaken hreq (untaken_of_reacted hr)⟩

/-- Settles O9: a step is an operation in the state with its request taken off, or an act of the host that the invariant
does not read. -/
theorem stepKeepsInv : Obligations.StepKeepsInv := by
  intro s t hs h
  have hc := hs.config
  cases hreq : s.requests with
  | nil =>
    rw [step_of_idle hc (fetch_of_nil hreq)] at h
    cases h
    exact hs
  | cons req later =>
    have hlater := inv_setRequests hs later
    cases req with
    | word w =>
      cases hw : decode w with
      | error e =>
        rw [step_of_decode_error hc hreq hw] at h
        cases h
      | ok i =>
        rw [step_of_run hc (fetch_of_word hreq hw)] at h
        exact inv_exec hlater h
    | replaceHook p k =>
      rw [step_of_acted hc (fetch_of_replaceHook hreq)] at h
      cases h
      exact inv_setHook hlater p k
    | setProgramCounter a =>
      rw [step_of_acted hc (fetch_of_setProgramCounter hreq)] at h
      cases h
      exact hlater
    | pulseReset =>
      rw [step_of_acted hc (fetch_of_pulseReset hreq)] at h
      cases h
      exact hlater

theorem inv_boot {c : Cfg} (hc : c.WF) : (State.boot c).Inv := inv_iff.mpr ⟨good_boot hc, rfl⟩

theorem wf_default : Cfg.default.WF := by decide

/-- Settles O10: every storage is empty, and the derived fields are computed from the images. -/
theorem resetStateIsGood : Obligations.ResetStateIsGood := ⟨inv_boot wf_default, fun _ => inv_boot⟩

/-! ### What software sees after reset (R36, R222) -/

/-- The reset image of the default configuration lists the target registers' bytes only. -/
theorem reset_byteAt {r : Region} {o : Nat} (h : r = .timer → o < 0x14 ∨ 0x1C ≤ o) :
    State.reset.byteAt r o = 0 := by
  rw [State.reset, boot_byteAt]
  cases r with
  | timer =>
    have ho := h rfl
    have hne (x : Nat) (hx : 0x14 ≤ x ∧ x < 0x1C) : o ≠ x := by omega
    simp [imageByte, Cfg.default, listedByte, hne]
  | sys => rfl
  | serial => rfl

/-- Settles O57: each register is read at its default place, from the reset image. -/
theorem softwareSeesTheResetValues : Obligations.SoftwareSeesTheResetValues := by
  refine ⟨fun n hw => ?_, fun n hw => ?_, fun r o => reset_byteAt, fun p => ?_, rfl, rfl, ?_, rfl, rfl, fun s t h => ?_⟩
  · rw [exec_half_read (s := State.reset) wf_default hw rfl]
    cases n <;> rfl
  · rw [exec_named_read8 (s := State.reset) wf_default rfl]
    cases n with
    | ddrgp | portgp | porte0 | porte1 | ddre | pepar | portf0 | portf1 | ddrf | pfpar => rfl
    | tcnt | toc1 | toc2 | toc3 | toc4 | tmsk | tflg | syncr | picr | pitr => cases hw
  · cases p <;> rfl
  · exact Nat.mul_comm ..
  · cases h
    exact ⟨⟨rfl, fun p => by cases p <;> rfl, rfl, rfl, rfl, rfl⟩, rfl, rfl⟩

end Sys2Proof.Invariant

namespace Sys2Proof.BusWrites

/-! PROOFS. Accesses by address and by name (`45_dispatch.md` R170 to R172, R177; `30_encoding.md` R70): what two addresses
of one masked address share, where a name leads, where a bus write completes, what it stores and what it leaves, and what
two writes of one byte each amount to (R237). -/

open Sys2Proof Sys2Proof.Machine Sys2Proof.RegionAccess Sys2Proof.NamedRegisters Sys2Proof.TimerRegisters
  Sys2Proof.ClockPit Sys2Proof.BusDispatch Sys2Proof.RegisterDecode Sys2Proof.RegionWrites Sys2Proof.Invariant

/-! ### Aliases (R177) -/

section

variable {addr addr2 : Word} (h : busMask addr = busMask addr2) (s : State)

include h

theorem busMask_secondHalf_congr : busMask (secondHalf addr) = busMask (secondHalf addr2) := by
  rw [busMask_eq, busMask_eq] at h
  rw [busMask_secondHalf, busMask_secondHalf]
  omega

theorem busRead8_congr : busRead8 addr s = busRead8 addr2 s := by simp only [busRead8, h]

theorem busRead16_congr : busRead16 addr s = busRead16 addr2 s := by simp only [busRead16, h]

theorem busRead32_congr : busRead32 addr s = busRead32 addr2 s := by
  simp only [busRead32, busRead16_congr h, busRead16_congr (busMask_secondHalf_congr h)]

theorem busWrite8_congr (v : Byte) : busWrite8 addr v s = busWrite8 addr2 v s := by simp only [busWrite8, h]

theorem busWrite16_congr (v : Half) : busWrite16 addr v s = busWrite16 addr2 v s := by simp only [busWrite16, h]

theorem busWrite32_congr (v : Word) : busWrite32 addr v s = busWrite32 addr2 v s := by
  simp only [busWrite32, busWrite16_congr h, busWrite16_congr (busMask_secondHalf_congr h)]

end

/-- Settles O33: a bus operation sees an address through the mask only, and so do both halves of a 32-bit one. -/
theorem addressesAliasModuloTheWindow : Obligations.AddressesAliasModuloTheWindow := by
  intro s addr addr2 h
  rw [← busMask_eq, ← busMask_eq] at h
  have hread16 : exec (.read16 addr) s = exec (.read16 addr2) s := by rw [exec_read16, exec_read16, busRead16_congr h]
  have hread32 : exec (.read32 addr) s = exec (.read32 addr2) s := by rw [exec_read32, exec_read32, busRead32_congr h]
  refine ⟨?_, hread16, hread32, hread16, hread32, fun v => ?_, fun v => ?_, fun v => ?_⟩
  · rw [exec_read8, exec_read8, busRead8_congr h]
  · rw [exec_write8, exec_write8, busWrite8_congr h]
  · rw [exec_write16, exec_write16, busWrite16_congr h]
  · rw [exec_write32, exec_write32, busWrite32_congr h]

/-! ### Accesses by name (R70) -/

/-- A name's byte lies in its region's window, the second one if it has one. -/
theorem named_lane_claims {c : Cfg} (hc : c.WF) {n : RegName} {r : Region} {x : Nat} (hn : namedAt c n = (r, x))
    {lo : Bool} (hw : (n.instr (.read8 lo)).wf = true) : Claims c r (regionBase c r + x + lo.toNat) := by
  rw [wf_instr] at hw
  cases lo with
  | false => exact namedAt_claims hc hn
  | true => exact (namedAt_half hc (by simpa [RegAccess.fits8] using hw) hn).2

/-- A claimed address is its own masked address. -/
theorem ofNat_mask {c : Cfg} (hc : c.WF) {r : Region} {a : Nat} (h : Claims c r a) :
    (BitVec.ofNat 32 a).toNat = a ∧ BitVec.ofNat 32 a = BitVec.ofNat 32 ((BitVec.ofNat 32 a).toNat % 2 ^ 20) := by
  have hlt := claims_lt hc h
  have ha : (BitVec.ofNat 32 a).toNat = a := by rw [BitVec.toNat_ofNat]; omega
  exact ⟨ha, by rw [ha, Nat.mod_eq_of_lt hlt]⟩

/-- Settles O36: a name stands for its address (R70), and there a bus operation is the region's (R178). -/
theorem namedAccessIsBusAccess : Obligations.NamedAccessIsBusAccess := by
  intro n s r x hc hn
  refine ⟨fun lo a ha hw => ?_, fun a ha hw => ?_⟩
  · have hin := named_lane_claims hc hn hw
    obtain ⟨htoNat, hmask⟩ := ofNat_mask hc hin
    rw [← ha] at htoNat hmask
    have hlane : laneAddress s.cfg n lo = a := by rw [laneAddress, namedAddress, hn, ← BitVec.ofNat_add, ha]
    obtain ⟨hread, -, -, hwrite, -⟩ := busAccessIsRegionAccess s a a r hc hmask (htoNat.symm ▸ hin)
    have hbus : exec (n.instr (.read8 lo)) s = exec (.read8 a) s := by
      rw [exec_named, accessRegister, hlane, exec_read8]
    refine ⟨hbus, hbus.trans hread, fun v => ?_⟩
    have hbus : exec (n.instr (.write8 lo v)) s = exec (.write8 a v) s := by
      rw [exec_named, accessRegister, hlane, exec_write8]
    exact ⟨hbus, hbus.trans (hwrite v)⟩
  · have hin := namedAt_claims hc hn
    obtain ⟨htoNat, hmask⟩ := ofNat_mask hc hin
    rw [← ha] at htoNat hmask
    have haddr : namedAddress s.cfg n = a := by rw [namedAddress, hn, ha]
    obtain ⟨-, hread, -, -, hwrite⟩ := busAccessIsRegionAccess s a a r hc hmask (htoNat.symm ▸ hin)
    have hbus : exec (n.instr .read16) s = exec (.read16 a) s := by
      rw [exec_named, accessRegister, haddr, exec_read16]
    refine ⟨hbus, hbus.trans hread, fun v => ?_⟩
    have hbus : exec (n.instr (.write16 v)) s = exec (.write16 a v) s := by
      rw [exec_named, accessRegister, haddr, exec_write16]
    exact ⟨hbus, hbus.trans (hwrite v)⟩

/-! ### The mask register (R117) -/

/-- Settles O41: a write is a store, and the mask register has no side effect. -/
theorem maskRegister : Obligations.MaskRegister := by
  rintro s x hinv rfl
  have hc := hinv.config
  have hsorted : s.sorted .timer := (hinv.storage .timer).1
  obtain ⟨-, -, hmask, -⟩ := timer_halfAt hc
  have h : NamesHalf s.cfg .tmsk .timer .tmsk s.cfg.tTmsk := ⟨rfl, rfl, hmask⟩
  have hwrite {acc : RegAccess} {u : State} (hu : Stores acc .timer s.cfg.tTmsk s u) :
      exec (.tmsk acc) s = .next (u.setResult .none) := by
    obtain ⟨o, hexec⟩ := exec_write_half hc h nofun hu
    exact hexec.trans (by rw [sideEffect, finish_ok])
  refine ⟨exec_read16_half hc h nofun nofun, exec_read8_half hc h nofun nofun,
    fun v => ⟨_, hwrite (.inl ⟨v, rfl, rfl⟩), rfl, ?_, fun k => ?_, sameStorageBut_setReg16 hsorted _ _ v⟩,
    fun lo v => ⟨_, hwrite (.inr ⟨lo, v, rfl, rfl⟩), rfl, sameStorageBut_setByte hsorted _ _ v⟩⟩
  · rw [setResult_reg16, setReg16_reg16 hsorted]
  · simp [State.mask, setReg16_reg16 hsorted]

/-! ### Where bus writes complete (R170 to R172) -/

section

variable {s : State} (hs : s.orderly) (hfit : LoadsFit s.cfg) (hclock : Clocked s) (addr : Word)

include hs hfit hclock

theorem busWrite8_completes (v : Byte) : ∃ t, busWrite8 addr v s = .ok t := by
  unfold busWrite8
  split
  · exact ⟨s, rfl⟩
  · exact regionWrite8_completes hs hfit hclock _ _ v

theorem busWrite16_completes (heven : addr.toNat % 2 = 0) (v : Half) : ∃ t, busWrite16 addr v s = .ok t := by
  unfold busWrite16
  split
  · exact ⟨s, rfl⟩
  · rw [busMask_mod_two, if_neg (by omega)]
    exact regionWrite16_completes hs hfit hclock _ _ v

end

theorem served_busWrite8 {addr : Word} {v : Byte} {s t : State} (h : busWrite8 addr v s = .ok t) : Served s t := by
  unfold busWrite8 at h
  split at h
  next => cases h; exact .refl s
  next => exact (served_storeByte ..).trans (regionWrite8_effected h).toServed

theorem served_busWrite16 {addr : Word} {v : Half} {s t : State} (h : busWrite16 addr v s = .ok t) : Served s t := by
  unfold busWrite16 at h
  split at h
  next => cases h; exact .refl s
  next =>
    split at h
    next => cases h
    next => exact (served_storeWord ..).trans (regionWrite16_effected h).toServed

theorem served_busWrite32 {addr v : Word} {s t : State} (h : busWrite32 addr v s = .ok t) : Served s t := by
  unfold busWrite32 at h
  split at h
  next => cases h
  next u hu => exact (served_busWrite16 hu).trans (served_busWrite16 h)

theorem busWrite32_completes {s : State} (hs : s.orderly) (hfit : LoadsFit s.cfg) (hclock : Clocked s) {addr : Word}
    (heven : addr.toNat % 2 = 0) (v : Word) :
    ∃ u t, busWrite16 addr (hiHalf v) s = .ok u ∧ busWrite16 (secondHalf addr) (loHalf v) u = .ok t := by
  obtain ⟨u, hu⟩ := busWrite16_completes hs hfit hclock addr heven (hiHalf v)
  have hserved := served_busWrite16 hu
  obtain ⟨t, ht⟩ := busWrite16_completes (hserved.orderly hs) (hserved.cfg ▸ hfit) (hserved.clocked hclock)
    (secondHalf addr) (by rw [secondHalf_mod_two, heven]) (loHalf v)
  exact ⟨u, t, hu, ht⟩

theorem clocked_of_inv {s : State} (h : s.Inv) : Clocked s := ⟨_, h.clock⟩

/-! ### What bus writes store -/

/-- The byte at address `a` is `v`, but for `Tcnt`, and every other byte of every storage is as before. -/
def StoredByte (s t : State) (a : Nat) (v : Byte) : Prop :=
  (∀ (r : Region) (o : Nat), regionBase s.cfg r + o ≠ a → t.byteAt r o = s.byteAt r o) ∧
    ∀ r : Region, Claims s.cfg r a → regAt s.cfg r (a - regionBase s.cfg r) ≠ some .tcnt →
      t.byteAt r (a - regionBase s.cfg r) = v

/-- The same of a word at `a` and `a + 1`. -/
def StoredHalf (s t : State) (a : Nat) (v : Half) : Prop :=
  (∀ (r : Region) (o : Nat), regionBase s.cfg r + o ≠ a → regionBase s.cfg r + o ≠ a + 1 →
      t.byteAt r o = s.byteAt r o) ∧
    ∀ r : Region, Claims s.cfg r a → regAt s.cfg r (a - regionBase s.cfg r) ≠ some .tcnt →
      t.byteAt r (a - regionBase s.cfg r) = hiByte v ∧ t.byteAt r (a - regionBase s.cfg r + 1) = loByte v

theorem busWrite8_stores {addr : Word} {v : Byte} {s t : State} (hs : Sound s) (h : busWrite8 addr v s = .ok t) :
    StoredByte s t (busMask addr) v := by
  by_cases hany : ∃ r, Claims s.cfg r (busMask addr)
  · obtain ⟨r, hin⟩ := hany
    have hlo := hin.1
    rw [busWrite8_of_claims hs.config hin] at h
    refine ⟨fun r1 o hne => ?_, fun r1 hin1 hcount => ?_⟩
    · rw [(regionWrite8_effected h).byteAt, storeByte_byteAt (hs.sorted r), if_neg]
      rintro ⟨⟨rfl, rfl⟩, -⟩
      omega
    · obtain rfl := claims_unique hs.config hin1 hin
      rw [(regionWrite8_effected h).byteAt, storeByte_of_ne_tcnt hs.config hcount, setByte_byteAt (hs.sorted r1),
        if_pos ⟨rfl, rfl⟩]
  · have hnone := not_exists.mp hany
    rw [busWrite8_unclaimed hnone] at h
    cases h
    exact ⟨fun _ _ _ => rfl, fun r hin => absurd hin (hnone r)⟩

theorem busWrite16_stores {addr : Word} {v : Half} {s t : State} (hs : Sound s) (heven : addr.toNat % 2 = 0)
    (h : busWrite16 addr v s = .ok t) : StoredHalf s t (busMask addr) v := by
  have hmask : busMask addr % 2 = 0 := by rw [busMask_mod_two, heven]
  by_cases hany : ∃ r, Claims s.cfg r (busMask addr)
  · obtain ⟨r, hin⟩ := hany
    have hlo := hin.1
    rw [busWrite16_of_claims hs.config hin hmask] at h
    have heffect := regionWrite16_effected h
    refine ⟨fun r1 o hne hne1 => ?_, fun r1 hin1 hcount => ?_⟩
    · rw [heffect.byteAt, storeWord_byteAt_of_ne (hs.sorted r)]
      rintro ⟨rfl, rfl | rfl⟩ <;> omega
    · obtain rfl := claims_unique hs.config hin1 hin
      rw [heffect.byteAt, heffect.byteAt, storeWord_of_ne_tcnt hs.config (offset_even hs.config hin hmask) hcount,
        setReg16_byteAt (hs.sorted r1), setReg16_byteAt (hs.sorted r1)]
      simp
  · have hnone := not_exists.mp hany
    rw [busWrite16_unclaimed hnone] at h
    cases h
    exact ⟨fun _ _ _ _ => rfl, fun r hin => absurd hin (hnone r)⟩

theorem word_bytes (v : Word) : hiByte (hiHalf v) = v.extractLsb' 24 8 ∧ loByte (hiHalf v) = v.extractLsb' 16 8 ∧
    hiByte (loHalf v) = v.extractLsb' 8 8 ∧ loByte (loHalf v) = v.extractLsb' 0 8 := by
  refine ⟨?_, ?_, ?_, ?_⟩ <;> ext i hi <;> simp [hiByte, loByte, hiHalf, loHalf] <;> grind

/-- Settles O35: a write is a store and a side effect, which completes (`sideEffect_completes`) and touches no storage; the
two words of a 32-bit write share no byte. -/
theorem busWritesComplete : Obligations.BusWritesComplete := by
  rintro s addr a a2 hinv hs hfit ha ha2
  obtain rfl : a = busMask addr := ha.trans (busMask_eq addr).symm
  obtain rfl : a2 = busMask (secondHalf addr) := ha2.trans (busMask_secondHalf addr).symm
  have hgood := good_of_inv hinv
  have hclock := clocked_of_inv hinv
  refine ⟨fun v => ?_, fun heven v => ?_, fun heven v => ?_⟩
  · obtain ⟨t, ht⟩ := busWrite8_completes hs hfit hclock addr v
    have hserved := served_busWrite8 ht
    obtain ⟨hother, hbyte⟩ := busWrite8_stores hgood.toSound ht
    exact ⟨t.setResult .none, by rw [exec_write8, ht, finish_ok], rfl, hserved.cycles, hserved.cfg, hserved.requests,
      hserved.engine, by simpa using hother, by simpa using hbyte⟩
  · obtain ⟨t, ht⟩ := busWrite16_completes hs hfit hclock addr heven v
    have hserved := served_busWrite16 ht
    obtain ⟨hother, hbytes⟩ := busWrite16_stores hgood.toSound heven ht
    exact ⟨t.setResult .none, by rw [exec_write16, ht, finish_ok], rfl, hserved.cycles, hserved.cfg, hserved.requests,
      hserved.engine, by simpa using hother, by simpa [hiByte, loByte] using hbytes⟩
  · obtain ⟨u, t, hu, ht⟩ := busWrite32_completes hs hfit hclock heven v
    have hfirst := served_busWrite16 hu
    have hserved := hfirst.trans (served_busWrite16 ht)
    obtain ⟨hother, hbytes⟩ := busWrite16_stores hgood.toSound heven hu
    obtain ⟨hother2, hbytes2⟩ :=
      busWrite16_stores (good_busWrite16 hgood hu).toSound (by rw [secondHalf_mod_two, heven]) ht
    rw [hfirst.cfg] at hother2 hbytes2
    have hsecond : busMask (secondHalf addr) ≠ busMask addr ∧ busMask (secondHalf addr) ≠ busMask addr + 1 ∧
        busMask (secondHalf addr) + 1 ≠ busMask addr := by
      rw [busMask_secondHalf, busMask_eq]
      omega
    obtain ⟨h24, h16, h8, h0⟩ := word_bytes v
    refine ⟨t.setResult .none, by rw [exec_write32, busWrite32_of_ok hu, ht, finish_ok], rfl, hserved.cycles,
      hserved.cfg, hserved.requests, hserved.engine, fun r o h h1 h2 h3 => ?_, fun r hin hcount => ?_,
      fun r hin hcount => ?_⟩
    · rw [setResult_byteAt, hother2 r o h2 h3, hother r o h h1]
    · have hlo := hin.1
      obtain ⟨hhi8, hlo8⟩ := hbytes r hin hcount
      rw [setResult_byteAt, setResult_byteAt, hother2 r _ (by omega) (by omega), hother2 r _ (by omega) (by omega), hhi8,
        hlo8]
      exact ⟨h24, h16⟩
    · obtain ⟨hhi8, hlo8⟩ := hbytes2 r hin hcount
      rw [setResult_byteAt, setResult_byteAt, hhi8, hlo8]
      exact ⟨h8, h0⟩

/-! ### A register written byte by byte (R237) -/

/-- The closed form depends on the accumulator modulo `WRAP` only. -/
theorem resyncValue_resyncValue (t t1 a : Int) : resyncValue t (resyncValue t1 a) = resyncValue t a := by
  simp only [resyncValue, wrapCycles]
  omega

/-- Resynchronised before a byte of the target is stored or not, the channel ends at the whole target. -/
theorem resync_setByte_resync (k : Channel) (o : Nat) (b : Byte) (u : State) :
    resync k (((resync k u).setResult .none).setByte .timer o b) =
      (resync k (u.setByte .timer o b)).setResult .none := by
  have hacc : ((u.setByte .timer o b).setAcc k (resyncValue (u.target k) u.acc[k])).acc[k] =
      resyncValue (u.target k) u.acc[k] := by rw [setAcc_getElem, if_pos rfl]
  have hover (v : Int) : ((u.setByte .timer o b).setAcc k (resyncValue (u.target k) u.acc[k])).setAcc k v =
      (u.setByte .timer o b).setAcc k v := by simp [State.setAcc]
  calc resync k (((resync k u).setResult .none).setByte .timer o b)
      = (((u.setByte .timer o b).setAcc k (resyncValue (u.target k) u.acc[k])).setAcc k
          (resyncValue ((u.setByte .timer o b).target k)
            ((u.setByte .timer o b).setAcc k (resyncValue (u.target k) u.acc[k])).acc[k])).setResult .none := rfl
    _ = (resync k (u.setByte .timer o b)).setResult .none := by
        rw [hacc, hover, resyncValue_resyncValue]; rfl

/-- The three writes, each a store and the register's side effect. -/
theorem exec_writes {s : State} (hc : s.cfg.WF) {n : RegName} {r : Region} {g : Reg} {x : Nat}
    (h : NamesHalf s.cfg n r g x) (hcount : g ≠ .tcnt) (hside : ∀ o1 o2, sideEffect r o1 (some g) = sideEffect r o2 (some g))
    (hi lo : Byte) :
    exec (n.instr (.write16 (hi ++ lo))) s = finish (sideEffect r x (some g) ((s.setByte r x hi).setByte r (x + 1) lo)) ∧
      exec (n.instr (.write8 false hi)) s = finish (sideEffect r x (some g) (s.setByte r x hi)) ∧
      ∀ t : State, t.cfg = s.cfg →
        exec (n.instr (.write8 true lo)) t = finish (sideEffect r x (some g) (t.setByte r (x + 1) lo)) := by
  have hword : s.setReg16 r x (hi ++ lo) = (s.setByte r x hi).setByte r (x + 1) lo := by
    rw [State.setReg16, hiByte, loByte, extract_append_high, extract_append_low]
  refine ⟨?_, ?_, fun t ht => ?_⟩
  · obtain ⟨o, hexec⟩ := exec_write_half hc h hcount (.inl ⟨_, rfl, rfl⟩)
    rw [hexec, hword, hside]
  · obtain ⟨o, hexec⟩ := exec_write_half hc h hcount (.inr ⟨false, hi, rfl, rfl⟩)
    rw [hexec, hside o x]
    rfl
  · obtain ⟨o, hexec⟩ := exec_write_half (s := t) (ht ▸ hc) (ht ▸ h) hcount (.inr ⟨true, lo, rfl, rfl⟩)
    rw [hexec, hside o x]
    rfl

/-- A byte of `PICR` stored after a restart: the next restart is from the whole register. -/
theorem pitRecompute_setByte_restarted (load : Int) (o : Nat) (b : Byte) (u : State)
    (hle : pitLoadNow (u.setByte .sys o b) ≤ i32Max) :
    pitRecompute (((restarted u.sysclk load u).setResult .none).setByte .sys o b) =
      .ok ((restarted u.sysclk (pitLoadNow (u.setByte .sys o b)) (u.setByte .sys o b)).setResult .none) :=
  pitRecompute_restarted (s := ((restarted u.sysclk load u).setResult .none).setByte .sys o b) hle

/-- Settles O45: the side effect of the second byte undoes that of the first: it resynchronises to the whole target, or
restarts from the whole load value. -/
theorem twoByteWritesEndAsOneWord : Obligations.TwoByteWritesEndAsOneWord := by
  intro n s hi lo hn hinv hfit
  have hc := hinv.config
  obtain hn | rfl := hn
  · obtain ⟨k, hk⟩ := Option.ne_none_iff_exists'.mp hn
    obtain ⟨hword, hfirst, hsecond⟩ := exec_writes hc (namesHalf_toc hc hk) nofun (fun _ _ => rfl) hi lo
    rw [hword, hfirst]
    cases hvariant : s.cfg.variant with
    | multichannel =>
      have hside (u : State) (hu : u.cfg = s.cfg) :
          sideEffect .timer s.cfg.tToc[k] (some (.toc k)) u = .ok (resync k u) := by rw [sideEffect, hu, hvariant]
      rw [hside ((s.setByte ..).setByte ..) rfl, hside (s.setByte ..) rfl, finish_ok, finish_ok]
      refine ⟨_, rfl, ?_⟩
      rw [andThen, hsecond ((resync k (s.setByte ..)).setResult _) rfl, hside (State.setByte ..) rfl, resync_setByte_resync]
      rfl
    | legacy =>
      have hside (u : State) (hu : u.cfg = s.cfg) :
          sideEffect .timer s.cfg.tToc[k] (some (.toc k)) u = .ok u := by rw [sideEffect, hu, hvariant]
      rw [hside ((s.setByte ..).setByte ..) rfl, hside (s.setByte ..) rfl, finish_ok, finish_ok]
      refine ⟨_, rfl, ?_⟩
      rw [andThen, hsecond ((s.setByte ..).setResult _) rfl, hside (State.setByte ..) rfl]
      rfl
  · obtain ⟨-, hpicr, -⟩ := sys_halfAt hc
    obtain ⟨hword, hfirst, hsecond⟩ := exec_writes (n := .picr) hc ⟨rfl, rfl, hpicr⟩ nofun (fun _ _ => rfl) hi lo
    have hle (u : State) (hcfg : u.cfg = s.cfg) (hclk : u.sysclk = s.sysclk) : pitLoadNow u ≤ i32Max := by
      rw [pitLoadNow, hcfg, hclk, hinv.clock]
      exact hfit _ _ _
    have hone : pitRecompute (s.setByte .sys s.cfg.sPicr hi) = _ := pitRecompute_restarted (hle _ rfl rfl)
    have htwo : pitRecompute ((s.setByte .sys s.cfg.sPicr hi).setByte .sys (s.cfg.sPicr + 1) lo) = _ :=
      pitRecompute_restarted (hle _ rfl rfl)
    rw [hword, hfirst]
    simp only [sideEffect, hone, htwo, finish_ok]
    refine ⟨_, rfl, ?_⟩
    rw [andThen, hsecond ((restarted _ _ (s.setByte ..)).setResult _) rfl, sideEffect, pitRecompute_setByte_restarted _ _ _ (s.setByte ..) (hle (State.setByte ..) rfl rfl)]
    rfl

end Sys2Proof.BusWrites

namespace Sys2Proof.EngineStep

/-! PROOFS. `STEP` (`46_integration.md` R180, R187): the engine's operations as operations of their own, what they keep
between them, and where a whole step completes. -/

open Sys2Proof Sys2Proof.Machine Sys2Proof.RegionAccess Sys2Proof.BusDispatch Sys2Proof.InterruptArbiter
  Sys2Proof.Integration Sys2Proof.RegionWrites Sys2Proof.BusWrites Sys2Proof.Stepping

/-! ### One operation of the engine -/

theorem served_finish {s t : State} {o : Except Refusal State} (ho : ∀ u, o = .ok u → Served s u)
    (h : finish o = .next t) : Served s t := by
  obtain ⟨u, hu, rfl⟩ := finish_next.mp h
  exact (ho u hu).trans (served_setResult ..)

theorem served_answer {s t : State} {o : Except Refusal Result} (h : answer s o = .next t) : Served s t := by
  obtain ⟨v, -, rfl⟩ := answer_next.mp h
  exact served_setResult ..

theorem served_ack {lvl : Level} {s t : State} (h : exec (.ack lvl) s = .next t) : Served s t := by
  obtain ⟨x, u, rfl, rfl | ⟨rest, -, hr⟩⟩ := exec_ack_cases h
  · exact served_setResult ..
  · have hlog : Served (s.setQueue lvl rest) ((s.setQueue lvl rest).log (.irqLine 0)) :=
      served_of_reacted (reacted_log ..)
    exact (((served_setQueue s lvl rest).trans hlog).trans (served_of_reacted hr)).trans (served_setResult ..)

theorem served_engineOp {op : EngineOp} {s t : State} (h : exec op.toInstr s = .next t) : Served s t := by
  cases op with
  | read16 | read32 | fetch16 | fetch32 => exact served_answer h
  | read8 | illegal | resethook | resetpc | resetsp =>
    cases h
    exact served_setResult ..
  | write8 => exact served_finish (fun _ => served_busWrite8) h
  | write16 => exact served_finish (fun _ => served_busWrite16) h
  | write32 => exact served_finish (fun _ => served_busWrite32) h
  | ack => exact served_ack h

/-- What an operation of the engine needs to complete (R176, R235, R8 (d)). -/
structure Ready (s : State) : Prop where
  orderly : s.orderly
  fits : LoadsFit s.cfg
  clocked : Clocked s

theorem Ready.served {s t : State} (hs : Ready s) (h : Served s t) : Ready t :=
  ⟨h.orderly hs.orderly, h.cfg ▸ hs.fits, h.clocked hs.clocked⟩

theorem exec_engineOp_completes {op : EngineOp} (hop : EngineAligned op) {s : State} (hs : Ready s) :
    ∃ t, exec op.toInstr s = .next t := by
  obtain ⟨horderly, hfit, hclock⟩ := hs
  have hread16 {a : Word} (heven : a.toNat % 2 = 0) : ∃ t, exec (.read16 a) s = .next t := by
    obtain ⟨v, hv⟩ := busRead16_even heven s
    exact ⟨_, exec_read16_eq_next.mpr hv⟩
  have hread32 {a : Word} (heven : a.toNat % 2 = 0) : ∃ t, exec (.read32 a) s = .next t := by
    obtain ⟨hi, hhi⟩ := busRead16_even heven s
    obtain ⟨lo, hlo⟩ := busRead16_even (addr := secondHalf a) (by rw [secondHalf_mod_two, heven]) s
    exact ⟨_, exec_read32_eq_next.mpr (busRead32_of_ok hhi hlo)⟩
  cases op with
  | read8 | illegal | resethook | resetpc | resetsp => exact ⟨_, rfl⟩
  | read16 a => exact hread16 hop
  | read32 a => exact hread32 hop
  | fetch16 a => exact hread16 hop
  | fetch32 a => exact hread32 hop
  | write8 a v =>
    obtain ⟨t, ht⟩ := busWrite8_completes horderly hfit hclock a v
    exact ⟨_, finish_next.mpr ⟨t, ht, rfl⟩⟩
  | write16 a v =>
    obtain ⟨t, ht⟩ := busWrite16_completes horderly hfit hclock a hop v
    exact ⟨_, finish_next.mpr ⟨t, ht, rfl⟩⟩
  | write32 a v =>
    obtain ⟨u, t, hu, ht⟩ := busWrite32_completes horderly hfit hclock hop v
    exact ⟨_, finish_next.mpr ⟨t, by rw [busWrite32_of_ok hu, ht], rfl⟩⟩
  | ack lvl =>
    obtain ⟨v, t, ht⟩ := ackLevel_completes horderly lvl
    exact ⟨_, exec_ack_next.mpr ⟨v, t, ht, rfl⟩⟩

/-! ### All of them -/

theorem engineSteps_eq_execNested (ops : List EngineOp) (s : State) : engineSteps ops s = execNested ops s := by
  induction ops generalizing s with
  | nil => rfl
  | cons op ops ih =>
    rw [engineSteps, engineStep, engineOutcome_eq_exec, execNested]
    cases exec op.toInstr s with
    | next t => exact ih _
    | fault => rfl
    | refused => rfl

/-- `s` with the results `xs` with the engine. -/
def handed (xs : List Result) (s : State) : State := { s with engineResults := xs }

theorem served_handed {s t : State} (h : Served s t) (xs : List Result) : Served (handed xs s) (handed xs t) :=
  { h with engineResults := rfl }

/-- Between the engine's operations nothing but results is exchanged, one of each operation. -/
theorem served_engineSteps {ops : List EngineOp} {s t : State} (h : engineSteps ops s = .next t) :
    Served (handed t.engineResults s) t ∧ t.engineResults.length = s.engineResults.length + ops.length := by
  induction ops generalizing s with
  | nil => cases h; exact ⟨.refl _, rfl⟩
  | cons op ops ih =>
    obtain ⟨u, hu, h⟩ := engineSteps_cons_next h
    obtain ⟨w, hw, rfl⟩ := engineStep_next hu
    obtain ⟨hserved, hlength⟩ := ih h
    have hop := served_engineOp hw
    refine ⟨(served_handed (hop.trans (served_setResult w .none)) _).trans hserved, ?_⟩
    simp [hlength, hop.engineResults]
    omega

theorem engineSteps_completes {ops : List EngineOp} (hops : ∀ op ∈ ops, EngineAligned op) {s : State} (hs : Ready s) :
    ∃ t, engineSteps ops s = .next t := by
  induction ops generalizing s with
  | nil => exact ⟨s, rfl⟩
  | cons op ops ih =>
    obtain ⟨hop, hops⟩ := List.forall_mem_cons.mp hops
    obtain ⟨u, hu⟩ := exec_engineOp_completes hop hs
    obtain ⟨horderly, hfit, hclock⟩ := hs.served (served_engineOp hu)
    rw [engineSteps, engineStep, engineOutcome_eq_exec, hu]
    exact ih hops ⟨horderly, hfit, hclock⟩

/-! ### The peripherals -/

/-- What the exec steps keep for the engine, and of the storages. -/
theorem execAll_frame {d : Nat} {s t : State} (h : execAll d s = .ok t) :
    t.engine = s.engine ∧ t.engineResults = s.engineResults ∧
      (s.sorted .timer → SameStorageBut .timer s.cfg.tTflg 2 s t) := by
  unfold execAll at h
  split at h
  next => cases h
  next =>
    split at h
    next => cases h
    next u hu =>
      have hstep := timerStepped_timerExec hu
      obtain ⟨m, a, n, htimer⟩ := hstep.reacted
      obtain ⟨c, hclock⟩ := clockExec_reacted h
      refine ⟨hclock.engine.trans htimer.engine, hclock.engineResults.trans htimer.engineResults,
        fun hs r o hout => ?_⟩
      rw [hclock.sameStorage r o, ← (hstep.storage hs).2 r o hout]
      cases r <;> rfl

theorem execAll_completes {d : Nat} (hlt : d < 2 ^ 31) {s : State} (hs : s.orderly)
    (hacc : ∀ k : Channel, s.acc[k] + d ≤ i32Max) (hcount : i32Min ≤ s.pitCur - d) : ∃ t, execAll d s = .ok t := by
  obtain ⟨u, t, hu, ht, -⟩ := exec_steps_complete hlt hs (fun k _ => hacc k) hcount
  exact ⟨t, by rw [execAll, if_neg (by omega), hu]; exact ht⟩

/-- `s` with the cycle counter at `n`. -/
def timedAt (n : Nat) (s : State) : State := { s with cycles := BitVec.ofNat 64 n }

theorem advanceCycles_of_lt {n : Nat} {s : State} (h : s.cycles.toNat + n < 2 ^ 64) :
    advanceCycles n s = timedAt (s.cycles.toNat + n) s := by
  have hsum : s.cycles + BitVec.ofNat 64 n = BitVec.ofNat 64 (s.cycles.toNat + n) := by
    rw [BitVec.ofNat_add, BitVec.ofNat_toNat, BitVec.setWidth_eq]
  rw [advanceCycles, if_pos h, hsum, timedAt]

/-! ### The step -/

section

variable {s : State} {ops : List EngineOp} {n : Nat} {later : List EngineRun}

/-- The state in which the engine starts: its answer drawn, its last results discarded. -/
def drawn (later : List EngineRun) (s : State) : State :=
  { s with engine := later, engineResults := [], result := .none }

/-- `STEP` with an answer in the state: the operations, and then the peripherals with `cycles` advanced. -/
theorem exec_sysStep_eq (h : s.engine = ⟨ops, n⟩ :: later) (hcycles : s.cycles.toNat + n < 2 ^ 64) :
    exec .sysStep s = andThen (engineSteps ops (drawn later s)) fun t =>
      finish (execAll n (timedAt (s.cycles.toNat + n) t)) := by
  have hanswer : engineAnswer s = ⟨ops, n⟩ := by rw [engineAnswer, h]
  have hdraw : drawEngine s = drawn later s := by rw [drawEngine, h]; rfl
  change execSysStep s = _
  rw [execSysStep, hanswer, hdraw]
  cases ht : engineSteps ops (drawn later s) with
  | next t =>
    have hkept : t.cycles = s.cycles := (served_engineSteps ht).1.cycles
    change finish (execAll n (advanceCycles n t)) = finish _
    rw [advanceCycles_of_lt (by rw [hkept]; exact hcycles), hkept]
  | fault => rfl
  | refused => rfl

/-- What a completed step leaves for the engine. -/
theorem sysStep_books (h : s.engine = ⟨ops, n⟩ :: later) (hcycles : s.cycles.toNat + n < 2 ^ 64) {t : State}
    (ht : exec .sysStep s = .next t) :
    t.cycles.toNat = s.cycles.toNat + n ∧ t.engine = later ∧ t.engineResults.length = ops.length := by
  rw [exec_sysStep_eq h hcycles] at ht
  cases hu : engineSteps ops (drawn later s) with
  | fault => rw [hu] at ht; cases ht
  | refused => rw [hu] at ht; cases ht
  | next u =>
    rw [hu] at ht
    obtain ⟨v, hv, rfl⟩ := finish_next.mp ht
    obtain ⟨hserved, hlength⟩ := served_engineSteps hu
    obtain ⟨hengine, hresults, -⟩ := execAll_frame hv
    refine ⟨?_, hengine.trans hserved.engine, ?_⟩
    · rw [setResult_cycles, (untaken_execAll hv).cycles, timedAt, BitVec.toNat_ofNat, Nat.mod_eq_of_lt hcycles]
    · rw [setResult_engineResults, hresults]
      exact hlength.trans (Nat.zero_add _)

end

/-- Settles O54: the engine's operations keep the cycle counter, so it advances by what the engine reports. -/
theorem stepRunsTheEngineThenThePeripherals : Obligations.StepRunsTheEngineThenThePeripherals := by
  intro s ops n later h hcycles
  refine ⟨hasWord_iff.mpr rfl, fun hlt => ?_, fun hge t ht => ?_, fun t => sysStep_books h hcycles⟩
  · have hword : (BitVec.ofNat 32 n).toNat = n := by rw [BitVec.toNat_ofNat]; omega
    have hperipherals (t : State) : exec (.sysExec (BitVec.ofNat 32 n)) t = finish (execAll n t) := by
      change finish (execAll (BitVec.ofNat 32 n).toNat t) = _
      rw [hword]
    rw [exec_sysStep_eq h hcycles, engineSteps_eq_execNested]
    simp only [hperipherals]
    rfl
  · rw [exec_sysStep_eq h hcycles] at ht
    simp only [execAll, if_pos hge, finish_error] at ht
    cases hu : engineSteps ops (drawn later s) with
    | next | fault | refused => rw [hu] at ht; cases ht

/-- Settles O55: every operation completes and leaves the next one ready; then the accumulators and the count are those of
the state before, or have room by a resynchronisation or a restart. -/
theorem stepCompletes : Obligations.StepCompletes := by
  intro s ops n later hinv hs hfit h hlt hroom hcycles hops hacc hcount
  have hclock : Clocked s := clocked_of_inv hinv
  obtain ⟨u, hu⟩ := engineSteps_completes (s := drawn later s) hops ⟨hs, hfit, hclock⟩
  obtain ⟨hserved, -⟩ := served_engineSteps hu
  have hstart : ops = [] → u = drawn later s := by rintro rfl; cases hu; rfl
  have haccu (k : Channel) : u.acc[k] + n ≤ i32Max := by
    by_cases hnil : ops = []
    · rw [hstart hnil]; exact hacc k
    · obtain hk | hk := hserved.acc k
      · rw [hk]; exact hacc k
      · have := hroom hnil
        simp only [wrapCycles] at hk
        simp only [i32Max]
        omega
  have hcountu : i32Min ≤ u.pitCur - n := by
    obtain hk | hk := hserved.count
    · rw [hk]; exact hcount
    · simp only [i32Min]; omega
  obtain ⟨v, hv⟩ := execAll_completes hlt (s := timedAt (s.cycles.toNat + n) u) (hserved.orderly hs) haccu hcountu
  have hexec : exec .sysStep s = .next (v.setResult .none) := by
    rw [exec_sysStep_eq h hcycles, hu]
    exact finish_next.mpr ⟨v, hv, rfl⟩
  obtain ⟨hbook, -, hlength⟩ := sysStep_books h hcycles hexec
  refine ⟨_, hexec, hbook, hlength, ?_⟩
  rintro rfl
  refine ⟨List.length_eq_zero_iff.mp hlength, fun r o hout => ?_⟩
  obtain ⟨-, -, hstorage⟩ := execAll_frame hv
  cases hstart rfl
  rw [setResult_byteAt, hstorage (hinv.storage .timer).1 r o hout]
  cases r <;> rfl

end Sys2Proof.EngineStep

namespace Sys2Proof.Periods

/-! PROOFS. Time over runs of exec steps: the resynchronisation loops (`42_timer.md` R114), a channel's flag (R118, R121),
and the periodic timer's period (`43_clock_pit.md` R137). -/

open Sys2Proof Sys2Proof.Machine Sys2Proof.TimerRegisters Sys2Proof.TimerExec Sys2Proof.Integration
  Sys2Proof.BusWrites Sys2Proof.Invariant

/-! ### The resynchronisation loops (R114) -/

theorem resyncValue_unique {t a x : Int} (hmod : (x - a) % 0x40000 = 0) (hlow : t - 0x40000 < x) (hhigh : x ≤ t) :
    x = resyncValue t a := by
  simp only [resyncValue, wrapCycles]
  omega

theorem resyncValue_sub_wrap (t a : Int) : resyncValue t (a - wrapCycles) = resyncValue t a := by
  simp only [resyncValue, wrapCycles]
  omega

theorem resyncValue_add_wrap (t a : Int) : resyncValue t (a + wrapCycles) = resyncValue t a := by
  simp only [resyncValue, wrapCycles]
  omega

theorem resyncValue_of_window {t a : Int} (hlow : t - wrapCycles < a) (hhigh : a ≤ t) : resyncValue t a = a := by
  simp only [resyncValue, wrapCycles] at hlow ⊢
  omega

/-- The first loop, with enough turns, from above the target. -/
theorem resyncDown_eq {t : Int} (n : Nat) {a : Int} (habove : t < a) (henough : a ≤ t + n * 0x40000) :
    resyncDown t n a = resyncValue t a := by
  have hwrap : wrapCycles = 0x40000 := rfl
  induction n generalizing a with
  | zero => omega
  | succ n ih =>
    rw [resyncDown, if_pos habove, ← resyncValue_sub_wrap]
    by_cases hnext : t < a - wrapCycles
    · exact ih hnext (by push_cast at henough; omega)
    · rw [resyncValue_of_window (by omega) (by omega)]
      cases n with
      | zero => rfl
      | succ n => rw [resyncDown, if_neg hnext]

theorem resyncDown_of_le {t a : Int} (h : a ≤ t) (n : Nat) : resyncDown t n a = a := by
  cases n with
  | zero => rfl
  | succ n => rw [resyncDown, if_neg (by omega)]

/-- The second loop, with enough turns, from the target or below. -/
theorem resyncUp_eq {t : Int} (n : Nat) {a : Int} (hle : a ≤ t) (henough : t - a < (n + 1) * 0x40000) :
    resyncUp t n a = resyncValue t a := by
  have hwrap : wrapCycles = 0x40000 := rfl
  induction n generalizing a with
  | zero => exact (resyncValue_of_window (by push_cast at henough; omega) hle).symm
  | succ n ih =>
    rw [resyncUp]
    split
    next hfar => rw [ih (by omega) (by push_cast at henough; omega), resyncValue_add_wrap]
    next hnear => exact (resyncValue_of_window (by omega) hle).symm

theorem resyncUp_resyncDown {t a : Int} {m1 m2 : Nat} (h1 : (t - a).natAbs ≤ m1) (h2 : (t - a).natAbs ≤ m2) :
    resyncUp t m2 (resyncDown t m1 a) = resyncValue t a := by
  have hwrap : wrapCycles = 0x40000 := rfl
  obtain habove | hle := lt_or_ge t a
  · obtain ⟨hlow, hhigh, -⟩ := resyncValue_bounds t a
    rw [resyncDown_eq m1 habove (by omega), resyncUp_eq m2 hhigh (by omega), resyncValue_resyncValue]
  · rw [resyncDown_of_le hle, resyncUp_eq m2 hle (by omega)]

/-- Settles O46: the first loop ends at or below the target, where the second one ends at the closed form. -/
theorem resyncLoopsEndInTheClosedForm : Obligations.ResyncLoopsEndInTheClosedForm := by
  intro t a
  obtain ⟨hlow, hhigh, hmod⟩ := resyncValue_bounds t a
  refine ⟨⟨(t - a).natAbs, fun m1 m2 => resyncUp_resyncDown⟩, hmod, hlow, hhigh, fun x => resyncValue_unique, ?_, ?_⟩
  · intro h
    rwa [h] at hmod
  · intro h
    exact (resyncValue_unique h (by omega) le_rfl).symm

/-! ### A channel over a run of exec steps (R118, R121) -/

theorem totalCycles_cons (d : Word) (ds : List Word) : totalCycles (d :: ds) = d.toNat + totalCycles ds := rfl

/-- Where a run of the timer's exec steps starts: a good state of the multichannel variant, with no listener. -/
structure Ticking (s : State) : Prop where
  inv : s.Inv
  quiet : s.quiet
  variant : s.cfg.variant = .multichannel

section

variable {s : State}

/-- What one exec step does to an active channel. -/
theorem exec_tExec_active (hs : Ticking s) {d : Word} (hlt : d.toNat < 2 ^ 31)
    (hle : ∀ j ∈ activeChannels s.cfg.activeOc, s.acc[j] + d.toNat ≤ i32Max) :
    ∃ u, exec (.tExec d) s = .next u ∧ Ticking u ∧ u.cfg = s.cfg ∧
      ∀ j ∈ activeChannels s.cfg.activeOc, u.acc[j] = s.acc[j] + d.toNat ∧ u.target j = s.target j ∧
        u.flag j = (s.flag j || decide (s.target j ≤ s.acc[j] + d.toNat)) := by
  obtain ⟨hinv, hq, hvar⟩ := hs
  have hc := hinv.config
  have hsorted : s.sorted .timer := (hinv.storage .timer).1
  have hks := activeChannels_nodup s.cfg.activeOc
  have hexec := exec_tExec_multichannel hvar hlt
  rw [execChannels_quiet hks hc hsorted hq hle, finish_ok] at hexec
  have hbut := advanceAll_sameStorageBut hsorted d.toNat (activeChannels s.cfg.activeOc)
  obtain ⟨m, a, hframe⟩ := advanceAll_frame d.toNat (activeChannels s.cfg.activeOc) s
  have hcfg : (advanceAll d.toNat (activeChannels s.cfg.activeOc) s).cfg = s.cfg := by rw [hframe]
  refine ⟨_, hexec, ⟨inv_exec hinv hexec, ?_, ?_⟩, hcfg, fun j hj => ⟨?_, ?_, ?_⟩⟩
  · rw [hframe]; exact hq
  · exact (congrArg Cfg.variant hcfg).trans hvar
  · exact (advanceAll_acc hks d.toNat s j).trans (if_pos hj)
  · exact target_of_sameStorageBut_tflg hc hcfg hbut j
  · exact (advanceAll_flag hsorted d.toNat hc hks j).trans (by simp only [hj, decide_true, Bool.true_and])

/-- The flag after a run: the last step reaches the target if any step does. -/
theorem execList_tExec_active (hs : Ticking s) {k : Channel} (hk : k ∈ activeChannels s.cfg.activeOc) (ds : List Word)
    (hle : ∀ j ∈ activeChannels s.cfg.activeOc, s.acc[j] + totalCycles ds ≤ i32Max)
    (hlt : ∀ d ∈ ds, d.toNat < 2 ^ 31) :
    ∃ t, execList (ds.map Instr.tExec) s = .next t ∧ t.acc[k] = s.acc[k] + totalCycles ds ∧
      t.flag k = (s.flag k || (!ds.isEmpty && decide (s.target k ≤ s.acc[k] + totalCycles ds))) := by
  induction ds generalizing s with
  | nil => exact ⟨s, rfl, (add_zero _).symm, by simp⟩
  | cons d ds ih =>
    obtain ⟨hltd, hlt⟩ := List.forall_mem_cons.mp hlt
    simp only [totalCycles_cons, Nat.cast_add, ← add_assoc] at hle ⊢
    obtain ⟨u, hexec, hu, hcfg, hactive⟩ := exec_tExec_active hs hltd fun j hj => by
      have := hle j hj
      omega
    obtain ⟨hacc, htarget, hflag⟩ := hactive k hk
    obtain ⟨t, hrun, hacct, hflagt⟩ := ih hu (hcfg ▸ hk)
      (fun j hj => by rw [(hactive j (hcfg ▸ hj)).1]; exact hle j (hcfg ▸ hj)) hlt
    refine ⟨t, by rw [List.map_cons, execList, hexec]; exact hrun, by rw [hacct, hacc], ?_⟩
    rw [hflagt, hflag, htarget, hacc, Bool.or_assoc, List.isEmpty_cons, Bool.not_false, Bool.true_and]
    congr 1
    rw [Bool.eq_iff_iff]
    cases ds with
    | nil => simp [totalCycles]
    | cons => simp; omega

/-- A write to the flag register up to one wrap past the crossing takes the accumulator one wrap back. -/
theorem resyncValue_of_crossed {t a : Int} (hlow : t < a) (hhigh : a < t + 0x40000) :
    resyncValue t a = a - 0x40000 := by
  simp only [resyncValue, wrapCycles]
  omega

end

/-- Settles O49: the two runs are one lemma, of the state given and of the state after the write to the flag register. -/
theorem flagSetsAtTheCrossing : Obligations.FlagSetsAtTheCrossing := by
  intro k s hinv hq hvar hk
  have hs : Ticking s := ⟨hinv, hq, hvar⟩
  refine ⟨execList_tExec_active hs hk, fun v hv hlow hhigh => ?_⟩
  obtain ⟨-, -, hwrite⟩ := flagRegister s _ hinv rfl
  obtain ⟨u, hexec, hframe, hbut, hflags, hacc⟩ := hwrite hvar (.write16 v) _ (.inl ⟨v, rfl, rfl⟩)
  have hcfg : u.cfg = s.cfg := by rw [hframe]; rfl
  have hreactions : u.reactions = s.reactions := by rw [hframe]; rfl
  have htarget := target_of_sameStorageBut_tflg hinv.config hcfg hbut k
  have hacck : u.acc[k] = s.acc[k] - 0x40000 := (hacc k).trans (resyncValue_of_crossed hlow hhigh)
  have hflag : u.flag k = false := (hflags v rfl k).trans hv
  have hu : Ticking u := ⟨inv_exec hinv hexec, hreactions.trans hq, hcfg ▸ hvar⟩
  refine ⟨u, hexec, hacck, fun ds hle hlt => ?_⟩
  obtain ⟨t, hrun, -, hflagt⟩ := execList_tExec_active hu (hcfg ▸ hk) ds (hcfg ▸ hle) hlt
  refine ⟨t, hrun, ?_⟩
  rw [hflagt, hflag, htarget, hacck]
  cases ds with
  | nil => simp [totalCycles, -Fin.getElem_fin]; omega
  | cons => simp [-Fin.getElem_fin]; omega

/-! ### The period law (R137) -/

theorem exec_sExec_next {d : Word} {s t : State} (h : exec (.sExec d) s = .next t) (hload : s.pitLoad ≠ 0) :
    t.pitLoad = s.pitLoad ∧ t.reactions <:+ s.reactions ∧
      t.pitCur = s.pitCur - d.toNat + if s.pitCur - d.toNat ≤ 0 then s.pitLoad else 0 := by
  obtain ⟨u, hu, rfl⟩ := finish_next.mp h
  obtain ⟨-, ⟨hzero, -⟩ | ⟨-, -, hcount, rfl⟩ | ⟨-, -, hfire, w, hw, rfl⟩⟩ := clockExec_ok hu
  · exact absurd hzero hload
  · exact ⟨rfl, List.suffix_rfl, by rw [if_neg (by omega)]; exact (add_zero _).symm⟩
  · have hr := raiseOnce_reacted hw
    refine ⟨hr.pitLoad, hr.reactions, ?_⟩
    rw [if_pos hfire]
    exact congrArg₂ (· + ·) hr.pitCur hr.pitLoad

theorem firings_cons {d : Word} {ds : List Word} {s u : State} (h : exec (.sExec d) s = .next u) :
    firings (d :: ds) s = (if s.pitLoad ≠ 0 ∧ s.pitCur - d.toNat ≤ 0 then 1 else 0) + firings ds u := by
  rw [firings, h]

theorem execList_cons_next {i : Instr} {is : List Instr} {s t : State} (h : execList (i :: is) s = .next t) :
    ∃ u, exec i s = .next u ∧ execList is u = .next t := by
  rw [execList] at h
  cases hu : exec i s with
  | next u => rw [hu] at h; exact ⟨u, rfl, h⟩
  | fault e => rw [hu] at h; cases h
  | refused e => rw [hu] at h; cases h

/-- The count over a run: down by the cycles, up by the load value at each firing. -/
theorem execList_sExec_count {ds : List Word} {s t : State} {L : Nat} (hpos : 0 < L) (hload : s.pitLoad = L)
    (hle : s.pitCur ≤ L) (h : execList (ds.map Instr.sExec) s = .next t) :
    t.pitLoad = L ∧ t.pitCur ≤ L ∧ t.pitCur = s.pitCur - totalCycles ds + L * firings ds s := by
  induction ds generalizing s with
  | nil => cases h; exact ⟨hload, hle, by simp [totalCycles, firings]⟩
  | cons d ds ih =>
    obtain ⟨u, hu, h⟩ := execList_cons_next h
    have hne : s.pitLoad ≠ 0 := by omega
    obtain ⟨hloadu, -, hcount⟩ := exec_sExec_next hu hne
    rw [hload] at hloadu hcount
    obtain ⟨hloadt, hlet, hcountt⟩ := ih hloadu (by rw [hcount]; split <;> omega) h
    refine ⟨hloadt, hlet, ?_⟩
    rw [hcountt, hcount, firings_cons hu, totalCycles_cons]
    simp only [hne, ne_eq, not_false_eq_true, true_and]
    split <;> push_cast <;> ring

/-- With no step longer than the load value the run completes, and the count stays above 0. -/
theorem execList_sExec_completes {ds : List Word} {s : State} {L : Nat} (hs : s.orderly) (hload : s.pitLoad = L)
    (hmax : L ≤ i32Max) (hpos : 0 < s.pitCur) (hle : s.pitCur ≤ L) (hds : ∀ d ∈ ds, d.toNat ≤ L) :
    ∃ t, execList (ds.map Instr.sExec) s = .next t ∧ 0 < t.pitCur := by
  induction ds generalizing s with
  | nil => exact ⟨s, rfl, hpos⟩
  | cons d ds ih =>
    obtain ⟨hd, hds⟩ := List.forall_mem_cons.mp hds
    simp only [i32Max] at hmax
    obtain ⟨v, hv⟩ := clockExec_completes (d := d.toNat) (by omega) hs (by simp only [i32Min]; omega)
    have hu : exec (.sExec d) s = .next (v.setResult .none) := finish_next.mpr ⟨v, hv, rfl⟩
    obtain ⟨hloadu, hreactions, hcount⟩ := exec_sExec_next hu (by omega)
    rw [hload] at hloadu hcount
    obtain ⟨t, ht, hpost⟩ := ih (fun rs hrs => hs rs (hreactions.subset hrs)) hloadu
      (by rw [hcount]; split <;> omega) (by rw [hcount]; split <;> omega) hds
    exact ⟨t, by rw [List.map_cons, execList, hu]; exact ht, hpost⟩

/-- Settles O52: the count never exceeds the load value, which bounds the firings; where it stays above 0 they are the
quotient, and it is the load value less the remainder. -/
theorem periodLaw : Obligations.PeriodLaw := by
  intro ds s L hinv hq hL hload hcur
  refine ⟨fun t ht => ?_, fun hds => ?_⟩
  · obtain ⟨-, hle, hcount⟩ := execList_sExec_count hL hload hcur.le ht
    rw [Nat.le_div_iff_mul_le hL, mul_comm]
    rw [hcur] at hcount
    exact_mod_cast (show (L : Int) * firings ds s ≤ totalCycles ds by omega)
  · have hs : s.orderly := fun rs hrs => by rw [hq] at hrs; cases hrs
    obtain ⟨t, ht, hpos⟩ := execList_sExec_completes hs hload (hload ▸ hinv.loadRange) (by omega) hcur.le hds
    obtain ⟨hloadt, hle, hcount⟩ := execList_sExec_count hL hload hcur.le ht
    rw [hcur] at hcount
    have hsum : totalCycles ds = (L - t.pitCur).toNat + L * firings ds s := by
      zify
      rw [Int.toNat_of_nonneg (by omega), hcount]
      ring
    obtain ⟨hquot, hrem⟩ := (Nat.div_mod_unique hL).mpr ⟨hsum.symm, by omega⟩
    refine ⟨t, ht, hquot.symm, hloadt, ?_, hpos, hle⟩
    rw [hrem]
    omega

end Sys2Proof.Periods

namespace Sys2Proof.SequenceLaws

/-! PROOFS. Laws of short sequences with no listener: the writes of the two sides of a port (`41_gpio_port.md` R95), and the
vectors of one level (`44_interrupt_arbiter.md` R156). -/

open Sys2Proof Sys2Proof.Machine Sys2Proof.PortAccess Sys2Proof.TimerExec Sys2Proof.InterruptArbiter

/-! ### The two sides of a port (R95) -/

/-- The data after a write from the outside (R92). -/
def rxData (q : PortState) (c : Byte) : Byte :=
  (q.data &&& ~~~(~~~q.direction &&& q.enabledPins)) ||| (c &&& (~~~q.direction &&& q.enabledPins))

theorem rxData_getLsbD (q : PortState) (c : Byte) {i : Nat} (hi : i < 8) :
    (rxData q c).getLsbD i =
      if !q.direction.getLsbD i && q.enabledPins.getLsbD i then c.getLsbD i else q.data.getLsbD i := by
  rw [rxData, masked_getLsbD _ _ _ hi, BitVec.getLsbD_and, BitVec.getLsbD_not]
  simp [hi]

section

variable (q : PortState) (b c : Byte)

/-- (a): no pin is of both sides. -/
theorem masks_disjoint : (q.direction &&& q.enabledPins) &&& (~~~q.direction &&& q.enabledPins) = 0 := by
  ext i
  simp only [BitVec.getElem_and, BitVec.getElem_not]
  cases q.direction[i] <;> simp

/-- (a): every enabled pin is of one side. -/
theorem masks_cover :
    (q.direction &&& q.enabledPins) ||| (~~~q.direction &&& q.enabledPins) = q.enabledPins := by
  ext i
  simp only [BitVec.getElem_or, BitVec.getElem_and, BitVec.getElem_not]
  cases q.direction[i] <;> simp

/-- (c): the second write of one byte writes the bits that stand there. -/
theorem txData_twice (w : BitVec 64) : txData { q with data := txData q b, writeCounter := w } b = txData q b := by
  refine BitVec.eq_of_getLsbD_eq fun i hi => ?_
  rw [txData_getLsbD _ _ hi]
  simp only [txData_getLsbD _ _ hi]
  cases q.direction.getLsbD i && q.enabledPins.getLsbD i <;> rfl

/-- (d): the sides write different bits. -/
theorem rxData_txData (w : BitVec 64) :
    rxData { q with data := txData q b, writeCounter := w } c = txData { q with data := rxData q c } b := by
  refine BitVec.eq_of_getLsbD_eq fun i hi => ?_
  simp only [txData_getLsbD _ _ hi, rxData_getLsbD _ _ hi]
  cases q.direction.getLsbD i <;> simp

end

/-- A write from the CPU side, its counter below its end. -/
theorem exec_pWritetx_quiet {s : State} (hq : s.quiet) (p : Port) (b : Byte)
    (hlt : (s.port p).writeCounter.toNat + 1 < 2 ^ 64) :
    ∃ t w, exec (.pWritetx p b) s = .next t ∧ t.quiet ∧ w.toNat = (s.port p).writeCounter.toNat + 1 ∧
      t.port p = { s.port p with data := txData (s.port p) b, writeCounter := w } ∧
      t.out = s.out ++ [.txWrite p (txData (s.port p) b)] := by
  obtain ⟨w, n, hstate, hcount⟩ := log_bumpWriteCounter_eq p (txData (s.port p) b) s
  have hexec : exec (.pWritetx p b) s =
      .next ((transmitted p (txData (s.port p) b) w n s).setResult .none) := by
    change finish (portWriteTx p b s) = _
    rw [portWriteTx_quiet hq, hstate, finish_ok]
  refine ⟨_, w, hexec, ?_, (hcount (by omega)).1, ?_, by simp⟩
  · simpa [State.quiet, transmitted] using hq
  · simp

/-- A write from the outside. -/
theorem exec_pWriterx (s : State) (p : Port) (c : Byte) :
    ∃ t, exec (.pWriterx p c) s = .next t ∧ t.reactions = s.reactions ∧
      t.port p = { s.port p with data := rxData (s.port p) c } := by
  refine ⟨_, rfl, ?_, ?_⟩
  · simp [portWriteRx]
  · simp [portWriteRx, rxData]

/-- Settles O24: each law is one of the data after a write. -/
theorem portMaskLaws : Obligations.PortMaskLaws := by
  intro p b c s hq hlt
  obtain ⟨tx, w, htx, hqtx, hw, hporttx, houttx⟩ := exec_pWritetx_quiet hq p b (by omega)
  have hcount : (tx.port p).writeCounter.toNat = (s.port p).writeCounter.toNat + 1 := by rw [hporttx, hw]
  obtain ⟨txtx, w1, htxtx, -, hw1, hporttxtx, houttxtx⟩ := exec_pWritetx_quiet hqtx p b (by omega)
  obtain ⟨rx, hrx, hreactions, hportrx⟩ := exec_pWriterx s p c
  obtain ⟨txrx, htxrx, -, hporttxrx⟩ := exec_pWriterx tx p c
  have hqrx : rx.quiet := hreactions.trans hq
  have hcountrx : (rx.port p).writeCounter = (s.port p).writeCounter := by rw [hportrx]
  obtain ⟨rxtx, w2, hrxtx, -, -, hportrxtx, -⟩ := exec_pWritetx_quiet hqrx p b (by rw [hcountrx]; omega)
  have htwice : txData (tx.port p) b = txData (s.port p) b := by rw [hporttx, txData_twice]
  refine ⟨masks_disjoint _, masks_cover _, tx, txtx, rx, txrx, rxtx, htx, htxtx, hrx, htxrx, hrxtx,
    fun i hi hdisabled => ⟨?_, ?_⟩, ?_, ?_, ?_, ?_⟩
  · simp [hporttx, txData_getLsbD _ _ hi, hdisabled]
  · simp [hportrx, rxData_getLsbD _ _ hi, hdisabled]
  · rw [hporttxtx, hporttx, txData_twice]
  · rw [hporttxtx, hw1, hcount]
  · rw [houttxtx, htwice, houttx, hporttx, List.append_assoc, List.singleton_append]
  · rw [hporttxrx, hporttx, hportrxtx, hportrx, rxData_txData]

/-! ### The vectors of a level (R156) -/

/-- A run of injects at one level puts their vectors at its back, in order. -/
theorem execList_inject (lvl : Level) (vecs : List Byte) {s : State} (hq : s.quiet) :
    ∃ t, execList (vecs.map fun v => Instr.inject v lvl) s = .next t ∧ t.queue[lvl] = s.queue[lvl] ++ vecs ∧
      t.quiet := by
  induction vecs generalizing s with
  | nil => exact ⟨s, rfl, (List.append_nil _).symm, hq⟩
  | cons v vecs ih =>
    have hexec : exec (.inject v lvl) s = .next ((enqueued lvl [v] s).setResult .none) := by
      change finish (injectVector v lvl s) = _
      rw [injectVector_enqueued hq, finish_ok]
    obtain ⟨t, ht, hqueue, hqt⟩ := ih (s := (enqueued lvl [v] s).setResult .none) hq
    refine ⟨t, by rw [List.map_cons, execList, hexec]; exact ht, ?_, hqt⟩
    rw [hqueue, setResult_queue, enqueued_getElem, if_pos rfl, List.append_assoc, List.singleton_append]

theorem exec_ack_of_cons {s : State} (hq : s.quiet) {lvl : Level} {v : Byte} {rest : List Byte}
    (h : s.queue[lvl] = v :: rest) :
    exec (.ack lvl) s = .next ((popped lvl rest s).setResult (.word (v.setWidth 32))) :=
  exec_ack_next.mpr ⟨_, _, ackLevel_popped hq h, rfl⟩

theorem popped_queue_self (lvl : Level) (rest : List Byte) (s : State) (x : Result) :
    ((popped lvl rest s).setResult x).queue[lvl] = rest := by
  rw [setResult_queue, popped_getElem, if_pos rfl]

/-- A run of acknowledges takes as many vectors off the level's front. -/
theorem execList_ack (lvl : Level) (before rest : List Byte) {s : State} (hq : s.quiet)
    (h : s.queue[lvl] = before ++ rest) :
    ∃ t, execList (before.map fun _ => Instr.ack lvl) s = .next t ∧ t.queue[lvl] = rest ∧ t.quiet := by
  induction before generalizing s with
  | nil => exact ⟨s, rfl, h, hq⟩
  | cons v before ih =>
    obtain ⟨t, ht, hqueue, hqt⟩ := ih (s := (popped lvl (before ++ rest) s).setResult (.word (v.setWidth 32))) hq
      (popped_queue_self ..)
    exact ⟨t, by rw [List.map_cons, execList, exec_ack_of_cons hq h]; exact ht, hqueue, hqt⟩

/-- Settles O27: after as many acknowledges as there were injects before it, a vector stands at the front. -/
theorem levelsAreFirstInFirstOut : Obligations.LevelsAreFirstInFirstOut := by
  intro vecs lvl s hq hempty
  obtain ⟨t, ht, hqueue, hqt⟩ := execList_inject lvl vecs hq
  rw [hempty, List.nil_append] at hqueue
  refine ⟨t, ht, hqueue, hqt, fun before after v hvecs => ?_⟩
  obtain ⟨u, hu, hfront, hqu⟩ := execList_ack lvl before (v :: after) hqt (hqueue.trans hvecs)
  exact ⟨u, _, hu, exec_ack_of_cons hqu hfront, by rw [setResult_result, BitVec.ofNat_toNat], popped_queue_self ..⟩

end Sys2Proof.SequenceLaws

namespace Sys2Proof.Listeners

/-! PROOFS. What a listener does at an event (`20_memory.md` R54, `70_reset_and_hazards.md` R235): its reaction runs at the
point of the event, and a nested step stops the operation. -/

open Sys2Proof Sys2Proof.Machine Sys2Proof.RegionAccess Sys2Proof.BusDispatch Sys2Proof.RegionWrites

/-! ### A reaction at the event of a direction write (R54) -/

/-- `s` with other reactions to come. -/
def heard (later : List (List Reaction)) (s : State) : State := { s with reactions := later }

theorem reactAll_singleton (em : Event → State → Except Refusal State) (a : Reaction) (s : State) :
    reactAll em [a] s = react em s a := by
  rw [reactAll]
  cases react em s a <;> rfl

theorem emit_singleton {s : State} {a : Reaction} {later : List (List Reaction)} (h : s.reactions = [a] :: later)
    (e : Event) : emit e s = react emit ((heard later s).log e) a := by
  rw [emit_cons h, reactAll_singleton]
  rfl

theorem exec_pSetdir (p : Port) (m : Byte) (s : State) : exec (.pSetdir p m) s = finish (portSetDir p m s) := rfl

theorem exec_pSetdir_setResult (p : Port) (m : Byte) (s : State) :
    exec (.pSetdir p m) (s.setResult .none) = exec (.pSetdir p m) s :=
  finish_blind (portSetDir_blind p m) s

/-- The direction and the event, and then what the listener does. -/
theorem exec_pSetdir_reacting {s : State} {a : Reaction} {later : List (List Reaction)}
    (h : s.reactions = [a] :: later) (p : Port) (m : Byte) :
    ∃ t, exec (.pSetdir p m) (heard [] s) = .next t ∧ t.result = .none ∧ t.reactions = [] ∧
      exec (.pSetdir p m) s = finish (react emit (heard later t) a) := by
  have hquiet : (heard [] s).quiet := rfl
  have hsilent := portSetDir_quiet hquiet p m
  have hreacting : portSetDir p m s = react emit (heard later
      (((heard [] s).setPort p { (heard [] s).port p with direction := m }).log (.dirChange p m))) a := by
    rw [portSetDir, emit_singleton (later := later) (by simpa using h)]
    cases p <;> rfl
  refine ⟨_, by rw [exec_pSetdir, hsilent, finish_ok], rfl, by simp [heard], ?_⟩
  rw [exec_pSetdir, hreacting]
  exact (finish_blind (react_blind emit_blind a) _).symm

/-! ### A listener that issues a nested step (R235) -/

theorem react_nested {a : Reaction} (ha : a.external = false) (em : Event → State → Except Refusal State) (s : State) :
    react em s a = .error .nestedStep := by
  cases a with
  | writeRx | inject | replaceHook => cases ha
  | step | exec | reset => rfl

section

variable {a : Reaction} (ha : a.external = false) {rs : List Reaction} {later : List (List Reaction)} {s : State}
  (h : s.reactions = (a :: rs) :: later)

include ha h

theorem emit_nested (e : Event) : emit e s = .error .nestedStep := by
  rw [emit_cons h, reactAll, react_nested ha]

theorem portSetDir_nested (p : Port) (m : Byte) : portSetDir p m s = .error .nestedStep :=
  emit_nested ha (by rw [setPort_reactions]; exact h) _

theorem portWriteTx_nested (p : Port) (b : Byte) : portWriteTx p b s = .error .nestedStep :=
  emit_nested ha (by rw [bumpWriteCounter_reactions, setPort_reactions]; exact h) _

theorem injectVector_nested (vec : Byte) (lvl : Level) : injectVector vec lvl s = .error .nestedStep :=
  emit_nested ha (by simpa using h) _

theorem exec_ack_nested {lvl : Level} (hpending : s.queue[lvl] ≠ []) : exec (.ack lvl) s = .refused .nestedStep := by
  obtain ⟨vec, rest, hqueue⟩ := List.exists_cons_of_ne_nil hpending
  have hack : ackLevel lvl s = .error .nestedStep := by
    rw [ackLevel, hqueue]
    simp only [emit_nested ha (s := (s.setQueue lvl rest).setIrq 0) (by simpa using h)]
  change execAck lvl s = _
  rw [execAck, hack]

end

/-- Settles O59: at the event of `P.SETDIR` the reaction is an operation of its own; a word over a direction and a data
register is the two port operations (R87), and the reaction comes with the first. -/
theorem reactionsActAtTheEvent : Obligations.ReactionsActAtTheEvent := by
  refine ⟨fun s p q m b vec lvl k later => ⟨fun h => ?_, fun h => ?_, fun h => ?_, ?_⟩,
    fun s a rs later p b vec lvl ha h => ⟨?_, ?_, ?_, exec_ack_nested ha h⟩⟩
  · obtain ⟨t, ht, -, -, hexec⟩ := exec_pSetdir_reacting h p m
    exact hexec.trans (congrArg (andThen · fun t => exec (.pWriterx q b) (heard later t)) ht).symm
  · obtain ⟨t, ht, -, -, hexec⟩ := exec_pSetdir_reacting h p m
    exact hexec.trans (congrArg (andThen · fun t => exec (.inject vec lvl) (heard later t)) ht).symm
  · obtain ⟨t, ht, hresult, -, hexec⟩ := exec_pSetdir_reacting h p m
    have hhook : ((heard later t).setHook q k).setResult .none = (heard later t).setHook q k := by
      rw [← setResult_setHook, heard, State.setResult, ← hresult]
    refine hexec.trans (Eq.trans ?_ (congrArg (andThen · fun t => .next ((heard later t).setHook q k)) ht).symm)
    exact congrArg Host.Outcome.next hhook
  · rintro r addr v o hinv rfl hin hin1 heven hdir hdata h
    have hne : regAt s.cfg r (addr.toNat - regionBase s.cfg r) ≠ regAt s.cfg r (addr.toNat - regionBase s.cfg r + 1) := by
      rw [hdir, hdata]
      nofun
    have hset : (s.setReg16 r (addr.toNat - regionBase s.cfg r) v).reactions = [[.writeRx q b]] := by
      cases r <;> exact h
    obtain ⟨t, ht, -, hquiet, hexec⟩ := exec_pSetdir_reacting hset p (hiByte v)
    have hsame : heard [] t = t := by rw [heard, ← hquiet]
    rw [exec_w16Of_of_claims heven ⟨hin, hin1⟩, finish_regionWrite16 hinv (offset_even hinv.config hin heven) hne,
      hdir, hdata]
    change andThen (exec (.pSetdir p (hiByte v)) _) _ = andThen (exec (.pSetdir p (hiByte v)) (heard [] _)) _
    rw [exec_pSetdir_setResult, hexec, ht, hsame]
    rfl
  · rw [exec_pSetdir, portSetDir_nested ha h, finish_error]
  · change finish (portWriteTx p b s) = _
    rw [portWriteTx_nested ha h, finish_error]
  · change finish (injectVector vec lvl s) = _
    rw [injectVector_nested ha h, finish_error]

end Sys2Proof.Listeners

namespace Sys2Proof.Edges

/-! PROOFS. The edges of the domain: what refuses an operation (`40_mmio_region.md` R88, `45_dispatch.md` R176), how far the
load value goes on the default map (`43_clock_pit.md` R133), and where a write or an exec step would leave `i32` (R8 (d)). -/

open Sys2Proof Sys2Proof.Machine Sys2Proof.RegionAccess Sys2Proof.TimerRegisters Sys2Proof.ClockPit
  Sys2Proof.BusDispatch

/-! ### No bus operation leaves its window (R88) -/

/-- An event is refused by a nested step, or not at all. -/
def Nested (o : Except Refusal State) : Prop := ∀ e, o = .error e → e = .nestedStep

section

variable {em : Event → State → Except Refusal State} (hem : ∀ e s, Nested (em e s))

include hem

theorem nested_react (a : Reaction) (s : State) : Nested (react em s a) := by
  intro e h
  cases a with
  | writeRx | replaceHook => cases h
  | inject => exact hem _ _ e h
  | step | exec | reset => cases h; rfl

theorem nested_reactAll (rs : List Reaction) (s : State) : Nested (reactAll em rs s) := by
  induction rs generalizing s with
  | nil => exact nofun
  | cons a rs ih =>
    intro e h
    unfold reactAll at h
    split at h
    next x hx => cases h; exact nested_react hem a s _ hx
    next t ht => exact ih t e h

end

theorem nested_emitWithin (n : Nat) (e : Event) (s : State) : Nested (emitWithin n e s) := by
  induction n generalizing e s with
  | zero => exact nofun
  | succ n ih =>
    intro x h
    unfold emitWithin at h
    split at h
    next => cases h
    next rs later _ => exact nested_reactAll ih rs _ x h

theorem nested_emit (e : Event) (s : State) : Nested (emit e s) := nested_emitWithin _ e s

/-- An access completes, or is refused for another reason than its window's end. -/
def Within {α : Type} (o : Except Refusal α) : Prop := o ≠ .error .outOfRange

theorem within_ok {α : Type} (a : α) : Within (.ok a : Except Refusal α) := nofun

theorem within_emit (e : Event) (s : State) : Within (emit e s) := fun h => nomatch nested_emit e s _ h

theorem within_pitRecompute (s : State) : Within (pitRecompute s) := by
  unfold pitRecompute
  split <;> exact nofun

theorem within_sideEffect (r : Region) (o : Nat) (g : Option Reg) (s : State) : Within (sideEffect r o g s) := by
  unfold sideEffect
  split
  next => exact within_emit _ _
  next => exact within_emit _ _
  next => exact within_ok _
  next => split <;> exact within_ok _
  next => split <;> exact within_ok _
  next => exact within_pitRecompute _
  next => exact within_pitRecompute _
  next => exact within_pitRecompute _
  all_goals exact within_ok _

theorem within_regionWrite16 (r : Region) (o : Nat) (v : Half) (s : State) : Within (regionWrite16 r o v s) := by
  intro h
  simp only [regionWrite16] at h
  split at h
  next => exact within_sideEffect _ _ _ _ h
  next =>
    split at h
    next e he => cases h; exact within_sideEffect _ _ _ _ he
    next => exact within_sideEffect _ _ _ _ h

section

variable (addr : Word) (s : State)

theorem within_busRead16 : Within (busRead16 addr s) := by
  unfold busRead16
  split
  next => exact within_ok _
  next => split <;> exact nofun

theorem within_busRead32 : Within (busRead32 addr s) := by
  intro h
  unfold busRead32 at h
  split at h
  next e he => cases h; exact within_busRead16 _ _ he
  next =>
    split at h
    next e he => cases h; exact within_busRead16 _ _ he
    next => cases h

theorem within_busWrite8 (v : Byte) : Within (busWrite8 addr v s) := by
  unfold busWrite8
  split
  next => exact within_ok _
  next => exact within_sideEffect _ _ _ _

theorem within_busWrite16 (v : Half) : Within (busWrite16 addr v s) := by
  unfold busWrite16
  split
  next => exact within_ok _
  next =>
    split
    next => exact nofun
    next => exact within_regionWrite16 _ _ _ _

theorem within_busWrite32 (v : Word) : Within (busWrite32 addr v s) := by
  intro h
  unfold busWrite32 at h
  split at h
  next e he => cases h; exact within_busWrite16 _ _ _ he
  next => exact within_busWrite16 _ _ _ h

end

theorem finish_ne_outOfRange {o : Except Refusal State} (h : Within o) : finish o ≠ .refused .outOfRange := by
  intro hf
  cases o with
  | ok => cases hf
  | error e => cases hf; exact h rfl

theorem busOperation_ne_outOfRange (addr : Word) (v8 : Byte) (v16 : Half) (v32 : Word) (s : State) :
    ∀ i ∈ [Instr.read8 addr, .read16 addr, .read32 addr, .fetch16 addr, .fetch32 addr, .write8 addr v8,
      .write16 addr v16, .write32 addr v32], exec i s ≠ .refused .outOfRange := by
  have hread16 : exec (.read16 addr) s ≠ .refused .outOfRange :=
    fun h => within_busRead16 addr s (exec_read16_eq_refused.mp h)
  have hread32 : exec (.read32 addr) s ≠ .refused .outOfRange :=
    fun h => within_busRead32 addr s (exec_read32_eq_refused.mp h)
  simp only [List.forall_mem_cons]
  exact ⟨nofun, hread16, hread32, hread16, hread32, finish_ne_outOfRange (within_busWrite8 _ _ _),
    finish_ne_outOfRange (within_busWrite16 _ _ _), finish_ne_outOfRange (within_busWrite32 _ _ _), nofun⟩

/-! ### The load value on the default map (R133) -/

theorem pitLoadOf_default_le (c m y : Half) :
    pitLoadOf Cfg.default c m (clockOf Cfg.default y) ≤ 1069547520 := by
  obtain ⟨hclock, hload⟩ := clockAndLoadFormulas
  obtain ⟨-, -, -, hhigh, hratio⟩ := hclock y
  rw [hload, hratio]
  split
  · decide
  · have hmodulus : (m.extractLsb' 0 8).toNat ≤ 255 := by omega
    have hprescale : (if m.extractLsb' 8 1 = 1 then 512 else 1) ≤ 512 := by split <;> decide
    exact_mod_cast Nat.mul_le_mul (Nat.mul_le_mul (Nat.mul_le_mul hmodulus hprescale) (le_refl 4)) hhigh

theorem loadsFit_default : LoadsFit Cfg.default := fun c m y =>
  (pitLoadOf_default_le c m y).trans (by decide)

/-! ### A load value outside `i32` (R8 (d)) -/

theorem pitRecompute_refused {s : State} (h : pitLoadNow s > i32Max) : pitRecompute s = .error .i32Range := if_pos h

/-- A write that takes the load value outside `i32` is refused: the registers it does not touch, and the clock, are those of
the state before. -/
theorem exec_write_refused {n : RegName} {acc : RegAccess} {s u : State} {x : Nat}
    (hn : n = .syncr ∨ n = .picr ∨ n = .pitr) (hinv : s.Inv) (hx : namedAt s.cfg n = (.sys, x))
    (hu : Stores acc .sys x s u)
    (hload : pitLoadOf s.cfg (u.reg16 .sys s.cfg.sPicr) (u.reg16 .sys s.cfg.sPitr)
      (clockOf s.cfg (u.reg16 .sys s.cfg.sSyncr)) > i32Max) : exec (n.instr acc) s = .refused .i32Range := by
  have hc := hinv.config
  obtain ⟨hsyncr, hpicr, hpitr⟩ := sys_halfAt hc
  have hbut := hu.sameStorageBut (hinv.storage .sys).1
  have hnow (hother : u.reg16 .sys s.cfg.sSyncr = s.reg16 .sys s.cfg.sSyncr) : pitLoadNow u > i32Max := by
    obtain ⟨m, hframe⟩ := hu.frame
    have hclock : u.sysclk = s.sysclk := by rw [hframe, setStor_sysclk]
    rw [pitLoadNow, hu.cfg, hclock, hinv.clock, ← hother]
    exact hload
  obtain rfl | rfl | rfl := hn
  · obtain rfl : s.cfg.sSyncr = x := congrArg Prod.snd hx
    obtain ⟨o, hexec⟩ := exec_write_half (n := .syncr) hc ⟨rfl, rfl, hsyncr⟩ nofun hu
    have hside : sideEffect .sys o (some .syncr) u = .error .i32Range :=
      pitRecompute_refused (s := { u with sysclk := clockOf u.cfg (u.reg16 .sys u.cfg.sSyncr) }) (by
        rw [← hu.cfg] at hload
        exact hload)
    rw [hexec, hside, finish_error]
  · obtain rfl : s.cfg.sPicr = x := congrArg Prod.snd hx
    obtain ⟨o, hexec⟩ := exec_write_half (n := .picr) hc ⟨rfl, rfl, hpicr⟩ nofun hu
    rw [hexec, sideEffect, pitRecompute_refused (hnow (reg16_of_sameStorageBut hbut (hpicr.apart hsyncr nofun))),
      finish_error]
  · obtain rfl : s.cfg.sPitr = x := congrArg Prod.snd hx
    obtain ⟨o, hexec⟩ := exec_write_half (n := .pitr) hc ⟨rfl, rfl, hpitr⟩ nofun hu
    rw [hexec, sideEffect, pitRecompute_refused (hnow (reg16_of_sameStorageBut hbut (hpitr.apart hsyncr nofun))),
      finish_error]

/-! ### An exec step of `2^31` cycles or more (R119, R135) -/

theorem exec_tExec_of_ge {delta : Word} (h : 2 ^ 31 ≤ delta.toNat) (s : State) :
    exec (.tExec delta) s = .refused .i32Range := by
  change finish (timerExec delta.toNat s) = _
  rw [timerExec, if_pos h, finish_error]

theorem exec_sExec_of_ge {delta : Word} (h : 2 ^ 31 ≤ delta.toNat) (s : State) :
    exec (.sExec delta) s = .refused .i32Range := by
  rw [exec_sExec, clockExec, if_pos h, finish_error]

/-- Settles O60: each edge is one lemma above, or one about the accesses by offset and by address. -/
theorem edgesOfTheDomain : Obligations.EdgesOfTheDomain :=
  ⟨fun s addr v8 v16 v32 => busOperation_ne_outOfRange addr v8 v16 v32 s,
    fun _ _ _ hc heven h => claims_succ hc heven h, pitLoadOf_default_le, loadsFit_default,
    fun _ s h => ⟨exec_tExec_of_ge h s, exec_sExec_of_ge h s⟩,
    fun _ _ _ _ _ hn hinv hx hu hload => exec_write_refused hn hinv hx hu hload,
    fun _ _ _ v h => ⟨exec_r16Of_of_odd h, exec_w16Of_of_odd h v⟩⟩

end Sys2Proof.Edges
